-- ==== Sys2Proof/Word.lean ====
section
/-! DEFINITION. Word types of the OWQ engine and their plainest arithmetic (00_scope R6, R7). -/

namespace Sys2Proof

/-- A byte (R6: "A byte is 8 bits"). -/
abbrev Byte := BitVec 8

/-- A 32-bit register or operand, read as signed two's complement where a rule says so (R6, R7). -/
abbrev Word := BitVec 32

/-- The 104-bit command word of 30_encoding R91. -/
abbrev CmdWord := BitVec 104

/-- The 72-bit response word of 30_encoding R93. -/
abbrev RspWord := BitVec 72

/-- The eight bytes of a ROM id in index order, `rom[0]` first (30_encoding R91, R106). -/
abbrev RomId := Vector Byte 8

/-- `tdiv` of 00_scope R7: the quotient rounded toward zero. -/
abbrev tdiv (a b : Int) : Int := Int.tdiv a b

end Sys2Proof
end

