-- ==== Sys2Proof/Config.lean ====
section
/-! DEFINITION. What an implementation fixes (00_scope R5, 40_onewire_link R131) and the one free value
of the model (the answers of the wire environment, R141). -/

namespace Sys2Proof

/-- The names of the ten slot durations of 40_onewire_link R131. -/
inductive SlotParam where
  | rstl | pds | rstr | w1l | w1r | w0l | w0r | rdl | rds | rdr
deriving DecidableEq, Repr

/-- The ten slot durations in microseconds, OPEN parameters (R131). -/
structure SlotTimes where
  tRstl : Nat
  tPds : Nat
  tRstr : Nat
  tW1l : Nat
  tW1r : Nat
  tW0l : Nat
  tW0r : Nat
  tRdl : Nat
  tRds : Nat
  tRdr : Nat
deriving DecidableEq, Repr

/-- The duration a name stands for. -/
def SlotTimes.get (t : SlotTimes) : SlotParam → Nat
  | .rstl => t.tRstl
  | .pds => t.tPds
  | .rstr => t.tRstr
  | .w1l => t.tW1l
  | .w1r => t.tW1r
  | .w0l => t.tW0l
  | .w0r => t.tW0r
  | .rdl => t.tRdl
  | .rds => t.tRds
  | .rdr => t.tRdr

/-- The default durations of R131 (general knowledge, as R131 itself says). -/
def SlotTimes.default : SlotTimes :=
  { tRstl := 480, tPds := 70, tRstr := 410, tW1l := 6, tW1r := 64,
    tW0l := 60, tW0r := 10, tRdl := 6, tRds := 9, tRdr := 55 }

/-- The constraints of R131 an implementation keeps when it changes the durations. The presence sample
falls `tPds` after the release, and the released line before the next slot is the last delay of a slot. -/
abbrev SlotTimes.legal (t : SlotTimes) : Prop :=
  480 ≤ t.tRstl ∧ 480 ≤ t.tPds + t.tRstr ∧ 60 ≤ t.tPds ∧ t.tPds ≤ 75 ∧
  61 ≤ t.tW1l + t.tW1r ∧ 61 ≤ t.tW0l + t.tW0r ∧ 61 ≤ t.tRdl + t.tRds + t.tRdr ∧
  1 ≤ t.tW1r ∧ 1 ≤ t.tW0r ∧ 1 ≤ t.tRdr ∧
  1 ≤ t.tW1l ∧ t.tW1l ≤ 15 ∧ 60 ≤ t.tW0l ∧ t.tW0l ≤ 120 ∧ 1 ≤ t.tRdl ∧ t.tRdl + t.tRds ≤ 15

/-- The parameters that R5 leaves OPEN. No rule reads `fClk` or `syncStages`, and only the log `waited`
depends on the slot durations (92_eei_decisions D2, D26, "Points left OPEN"). Held in State, never changed by
a step, so that every statement about every state is a statement about every implementation (log entry 4). -/
structure Config where
  /-- `EDGE_IRQ_SUPPORTED`: whether the pads of A and B detect edges (R5, D28). -/
  edgeIrqSupported : Bool
  /-- `F_CLK`, the frequency of `clk` in hertz (R5, D2). -/
  fClk : Nat
  /-- `SYNC_STAGES`, the synchroniser depth on `enc_a`, `enc_b` and `dq_in` (R5, D26). -/
  syncStages : Nat
  /-- The slot durations (R131). -/
  times : SlotTimes
deriving DecidableEq, Repr

/-- The defaults of R5 and R131. For `F_CLK` the spec gives none; the value here is the model's (log entry
19). -/
def Config.default : Config :=
  { edgeIrqSupported := true, fClk := 1000000, syncStages := 2, times := SlotTimes.default }

/-- FREE VALUE. The level of the one-wire line at sample number `n` where the list of answers held in
State gives none: "every p and every b is a possible answer" (40_onewire_link R141; log entry 3). -/
opaque Config.freeDqIn : Nat → Bool

/-- The interval in microseconds a host waits before it trusts a reading: `750 / 2^(12-resolution)` ms
(42_ds18b20 R195). The block has no timer for it; it is the host's number. -/
def Config.conversionMicros (resolution : Nat) : Nat := 750000 / 2 ^ (12 - resolution)

/-- `T_CONV_SAFE` in microseconds: the wait this spec pins as safe at any resolution (R5, 70_reset R310). -/
def Config.conversionSafeMicros : Nat := 750000

end Sys2Proof
end

