-- ==== Sys2Proof/Syntax.lean ====
section
/-! DEFINITION. The instructions: one constructor per row of spec/opcode_table.json (30_encoding R96, R97).
An instruction carries the fields its row reads (R92) and nothing of the bits it ignores (R98). -/

namespace Sys2Proof

/-- The host commands. An operand `rom` is `none` for "address all devices on the wire" and the eight
bytes of the id otherwise (R91 field `rp`, R100). -/
inductive Instr where
  /-- `OW.Configure()`, op 0x1. -/
  | owConfigure
  /-- `ReadAddress()`, op 0x2. -/
  | readAddress
  /-- `SetResolution(rom_id, bits)`, op 0x3. -/
  | setResolution (rom : Option RomId) (bits : Word)
  /-- `RequestTemperature(rom_id)`, op 0x4. -/
  | requestTemperature (rom : Option RomId)
  /-- `ReadTemperature(rom_id)`, op 0x5. -/
  | readTemperature (rom : Option RomId)
  /-- `Q.Configure(cfg.precision)`, op 0x8. -/
  | qConfigure (precision : Word)
  /-- `Position()`, op 0x9. -/
  | position
  /-- `SetPosition(v)`, op 0xA. -/
  | setPosition (v : Word)
  /-- Reserved op 0x0 (row `RESERVED.0`). -/
  | reserved0
  /-- Reserved ops 0x6 and 0x7 (row `RESERVED.6_7`). -/
  | reserved67 (op : BitVec 4)
  /-- Reserved op 0xB (row `RESERVED.B`). -/
  | reservedB
  /-- Reserved ops 0xC to 0xF (row `RESERVED.C_F`). -/
  | reservedCF (op : BitVec 4)
deriving DecidableEq, Repr

end Sys2Proof
end

