-- ==== Sys2Proof/Machine/State.lean ====
section
/-! DEFINITION. The state of the OWQ engine: every element of 10_state R44, the input levels a step reads,
and the model's own fields (INVENTORY.md, State). Faults and refusals. -/

namespace Sys2Proof.Machine

/-- `q_state` (10_state R24): its fourth code is never held. -/
inductive QState where
  | created | ready | failed
deriving DecidableEq, Repr

/-- `ow_state` (10_state R26): `Result` is not stored, the fourth code is never held. -/
inductive OwState where
  | created | ready | converting
deriving DecidableEq, Repr

/-- The commands that take more than one step: those with wire traffic (10_state R31). -/
inductive WireCmd where
  | readAddress | setResolution | requestTemperature | readTemperature
deriving DecidableEq, Repr

/-- The sequencer position `seq` (10_state R30): `Idle`, or the accepted command and its step. -/
inductive Seq where
  | idle
  | busy (op : WireCmd) (step : Nat)
deriving DecidableEq, Repr

/-- `OK` and the five error kinds (30_encoding R94, 60_exceptions R260). -/
inductive Status where
  | ok | busError | notConnected | crcMismatch | invalidConfig | unsupported
deriving DecidableEq, Repr

/-- The wire events (40_onewire_link R140): `Reset(p)`, `W(b)`, `R(b)`. -/
inductive WireEvent where
  | reset (presence : Bool)
  | sent (b : Byte)
  | received (b : Byte)
deriving DecidableEq, Repr

/-- What the world outside does to the block (60_exceptions R280, 41_quadrature R162). -/
inductive Event where
  /-- The host presents one more command word (30_encoding R90). -/
  | present (w : CmdWord)
  /-- The host sets the level of `rsp_ready` (10_state R20). -/
  | rspReady (level : Bool)
  /-- The encoder sets the levels of `enc_a`, `enc_b`; the block detects the change (41_quadrature R162). -/
  | pins (a b : Bool)
  /-- An edge event `QEdge(a,b)` is delivered whatever the levels were (R162: "with any (a,b)"). -/
  | qEdge (a b : Bool)
  /-- `rst_n` is driven to this level (70_reset R300, R301). -/
  | rst (level : Bool)
deriving DecidableEq, Repr

/-- The state. -/
structure State where
  /-- R21: rolling history of samples, previous in 3:2, current in 1:0. -/
  oldAb : BitVec 4
  /-- R22: signed step count. -/
  counter : Word
  /-- R23: signed divisor, at least 1. -/
  precision : Word
  /-- R24. -/
  qState : QState
  /-- R25: `A ++ B` of the last synchronised sample. -/
  abPrev : BitVec 2
  /-- R36: pull-up enable output. -/
  encPuEn : Bool
  /-- R26. -/
  owState : OwState
  /-- R27. -/
  scratchpad : Vector Byte 9
  /-- R28. -/
  romBuf : Vector Byte 8
  /-- R29. -/
  resolution : BitVec 4
  /-- R30. -/
  seq : Seq
  /-- R33: the command latch. -/
  cmdOp : BitVec 4
  cmdRp : Bool
  cmdArg : Word
  cmdRom : RomId
  /-- R34: the response register. -/
  rspValid : Bool
  rspStatus : Status
  rspData : BitVec 64
  /-- R32 (b): result of the last reset of the line. -/
  presence : Bool
  /-- R35: 1 pulls the line low. -/
  dqOe : Bool
  /-- R134, R138: the level last sampled, `s`. -/
  dqSampled : Bool
  /-- R37, R137: the byte being received, `v`. -/
  shiftReg : Byte
  /-- R20: level of `rst_n`. -/
  rstN : Bool
  /-- R20, R162: synchronised levels of the encoder pins. -/
  encA : Bool
  encB : Bool
  /-- R90: the words the host presents, oldest first; the head is on `cmd_word`. -/
  cmds : List CmdWord
  /-- R20: level of `rsp_ready`. -/
  rspReady : Bool
  /-- The model's own: outside events to come, each with the number of steps before it (log entry 2). -/
  events : List (Nat × Event)
  /-- The model's own: the level of `dq_in` at sample 0, 1, 2, ... (R141; log entry 3). -/
  answers : List Bool
  /-- The model's own: the number of samples taken so far (log entry 3). -/
  samples : Nat
  /-- The model's own: the wire trace, oldest first (R140; log entry 11). -/
  trace : List WireEvent
  /-- The model's own: least time in microseconds spent in `Delay` (R130; log entry 7). -/
  waited : Nat
  /-- The parameters (R5; log entry 4). -/
  cfg : Config
deriving DecidableEq, Repr

/-- The one way the machine itself can stop. -/
inductive Fault where
  /-- Raised by the OW engine when `seq` names a step its command does not have. No rule gives such a
  position and no run reaches one; safe (log entry 17). -/
  | noSuchStep
deriving DecidableEq, Repr

/-- Instructions without a meaning. -/
inductive Refusal where
  /-- Raised by `exec` for an instruction that has no meaning yet; safe. No arm raises it. -/
  | notModelled (mnemonic : String)
deriving DecidableEq, Repr

/-- The state at the instant `rst_n` rises (10_state R44). Elements R44 leaves unspecified are zero (log
entry 5); input levels and the model's own fields as log entries 2, 3, 4, 7 and 11 say. -/
def State.reset : State :=
  { oldAb := 0b0011#4
    counter := 0
    precision := 4
    qState := .created
    abPrev := 0
    encPuEn := false
    owState := .created
    scratchpad := #v[0, 0, 0, 0, 0, 0, 0, 0, 0]
    romBuf := #v[0, 0, 0, 0, 0, 0, 0, 0]
    resolution := 12
    seq := .idle
    cmdOp := 0
    cmdRp := false
    cmdArg := 0
    cmdRom := #v[0, 0, 0, 0, 0, 0, 0, 0]
    rspValid := false
    rspStatus := .ok
    rspData := 0
    presence := false
    dqOe := false
    dqSampled := false
    shiftReg := 0
    rstN := true
    encA := true
    encB := true
    cmds := []
    rspReady := true
    events := []
    answers := []
    samples := 0
    trace := []
    waited := 0
    cfg := Config.default }

end Sys2Proof.Machine
end

