-- ==== Sys2Proof/Machine/Flags.lean ====
section
/-! DEFINITION. What plays the part of flags (10_state R32): the status codes, the response word, `busy`
and `cmd_ready`. -/

namespace Sys2Proof.Machine

/-- The 3-bit code of a status (30_encoding R94). Codes 6 and 7 belong to none. -/
def Status.code : Status → BitVec 3
  | .ok => 0
  | .busError => 1
  | .notConnected => 2
  | .crcMismatch => 3
  | .invalidConfig => 4
  | .unsupported => 5

/-- The 2-bit code of `q_state` (10_state R24). -/
def QState.code : QState → BitVec 2
  | .created => 0
  | .ready => 1
  | .failed => 2

/-- The 2-bit code of `ow_state` (10_state R26). -/
def OwState.code : OwState → BitVec 2
  | .created => 0
  | .ready => 1
  | .converting => 2

/-- The opcode of a wire command (30_encoding R96). -/
def WireCmd.opcode : WireCmd → BitVec 4
  | .readAddress => 0x2
  | .setResolution => 0x3
  | .requestTemperature => 0x4
  | .readTemperature => 0x5

/-- The response word `rsp_word` (30_encoding R93): `data` 71:8, five zeros, `status` 2:0. -/
def State.rspWord (s : State) : RspWord := s.rspData ++ 0#5 ++ s.rspStatus.code

/-- `busy`, which is not stored: `seq ≠ Idle` (10_state R32 (c)). -/
def State.busy (s : State) : Bool := s.seq != .idle

/-- `cmd_ready`: 1 exactly when `seq = Idle` and `rsp_valid = 0` (10_state R20, 30_encoding R90). -/
def State.cmdReady (s : State) : Bool := !s.busy && !s.rspValid

/-- `cmd_valid`: the host presents a word (10_state R20). -/
def State.cmdValid (s : State) : Bool := !s.cmds.isEmpty

end Sys2Proof.Machine
end

