-- ==== Sys2Proof/WellFormed.lean ====
section
/-! DEFINITION. The checks an instruction passes to have an encoding: a row that covers several opcodes
carries its own `op`, which must be one the row's mask and match admit (30_encoding R97, R98). Every other
operand is of a type that holds exactly what its field holds (10_state R41: the eight bytes of a ROM id
"by construction"; whether its last byte is a CRC is the host's duty, not a check, R41). -/

namespace Sys2Proof

/-- Whether every field of an instruction is one its row admits. -/
def Instr.wellFormed : Instr → Bool
  | .owConfigure => true
  | .readAddress => true
  | .setResolution _ _ => true
  | .requestTemperature _ => true
  | .readTemperature _ => true
  | .qConfigure _ => true
  | .position => true
  | .setPosition _ => true
  | .reserved0 => true
  | .reserved67 op => op == 0x6#4 || op == 0x7#4
  | .reservedB => true
  | .reservedCF op => op == 0xC#4 || op == 0xD#4 || op == 0xE#4 || op == 0xF#4

end Sys2Proof
end

