-- ==== Sys2Proof/Decode.lean ====
section
/-! DEFINITION. The fields of the command word (30_encoding R91), the decoder (R96, R97), total on all
2^104 words, and the encoder. The sixteen values of `op` are each matched by exactly one row (R98), so the
decoder rejects no word: a reserved opcode is an instruction of its own. -/

namespace Sys2Proof

/-- Bits 3:0, the opcode. -/
def CmdWord.op (w : CmdWord) : BitVec 4 := w.extractLsb' 0 4

/-- Bit 4, "ROM id present". -/
def CmdWord.rp (w : CmdWord) : Bool := w.getLsbD 4

/-- Bits 39:8, the signed 32-bit operand. -/
def CmdWord.arg (w : CmdWord) : Word := w.extractLsb' 8 32

/-- Eight bytes from a 64-bit field: byte `i` at bits `8i+7 : 8i` (20_memory R64). -/
def romOfBits (v : BitVec 64) : RomId :=
  #v[v.extractLsb' 0 8, v.extractLsb' 8 8, v.extractLsb' 16 8, v.extractLsb' 24 8,
     v.extractLsb' 32 8, v.extractLsb' 40 8, v.extractLsb' 48 8, v.extractLsb' 56 8]

/-- A 64-bit field from eight bytes: byte `i` at bits `8i+7 : 8i` (20_memory R64). -/
def bitsOfRom (r : RomId) : BitVec 64 :=
  r[7] ++ r[6] ++ r[5] ++ r[4] ++ r[3] ++ r[2] ++ r[1] ++ r[0]

/-- Bits 103:40, `rom[i] = cmd_word[47+8i : 40+8i]`. -/
def CmdWord.rom (w : CmdWord) : RomId := romOfBits (w.extractLsb' 40 64)

/-- The operand `rom_id`: `None` if `rp = 0`, else the eight bytes (R100). -/
def CmdWord.romId (w : CmdWord) : Option RomId := if w.rp then some w.rom else none

/-- The instruction of a command word (R96, R97): `op` alone selects it. The last arm is 0xC to 0xF, the
only values of a 4-bit `op` that are left. -/
def decode (w : CmdWord) : Instr :=
  match w.op.toNat with
  | 0x0 => .reserved0
  | 0x1 => .owConfigure
  | 0x2 => .readAddress
  | 0x3 => .setResolution w.romId w.arg
  | 0x4 => .requestTemperature w.romId
  | 0x5 => .readTemperature w.romId
  | 0x6 => .reserved67 w.op
  | 0x7 => .reserved67 w.op
  | 0x8 => .qConfigure w.arg
  | 0x9 => .position
  | 0xA => .setPosition w.arg
  | 0xB => .reservedB
  | _ => .reservedCF w.op

/-- A command word from its fields, `rsv` written 0 (R91: "the host should write 0"). -/
def packWord (op : BitVec 4) (rp : Bool) (arg : Word) (rom : BitVec 64) : CmdWord :=
  rom ++ arg ++ 0#3 ++ BitVec.ofBool rp ++ op

/-- A word whose command takes a `rom_id`: `rp` and `rom` from it, `rom` zero for `None`. -/
def packRomId (op : BitVec 4) (rid : Option RomId) (arg : Word) : CmdWord :=
  match rid with
  | none => packWord op false arg 0
  | some r => packWord op true arg (bitsOfRom r)

/-- The command word of an instruction, every bit it ignores written 0 (R91, R92, R96). -/
def encode : Instr → CmdWord
  | .owConfigure => packWord 0x1 false 0 0
  | .readAddress => packWord 0x2 false 0 0
  | .setResolution rid bits => packRomId 0x3 rid bits
  | .requestTemperature rid => packRomId 0x4 rid 0
  | .readTemperature rid => packRomId 0x5 rid 0
  | .qConfigure p => packWord 0x8 false p 0
  | .position => packWord 0x9 false 0 0
  | .setPosition v => packWord 0xA false v 0
  | .reserved0 => packWord 0x0 false 0 0
  | .reserved67 op => packWord op false 0 0
  | .reservedB => packWord 0xB false 0 0
  | .reservedCF op => packWord op false 0 0

/-- The command word whose low `nbits` bits are `w` and whose other bits are 0. -/
def tableWord (nbits w : Nat) : CmdWord := BitVec.ofNat 104 (w % 2 ^ nbits)

/-- The instruction this decoder reads from a word numbered as spec/opcode_table.json numbers it; `none`
for a length no command word has (R99: every command word is 104 bits). -/
def decodeTableWord (nbits w : Nat) : Option Instr :=
  if nbits ≤ 104 then some (decode (tableWord nbits w)) else none

end Sys2Proof
end

