-- ==== Sys2Proof/Machine/Operands.lean ====
section
/-! DEFINITION. The operand forms of the commands (30_encoding R100), the result forms (R95), the two pure
functions `crc8` (43_crc8_and_decode R230) and `decode_temp` (R236), and the quadrature table (R108). -/

namespace Sys2Proof.Machine

/-- The range check `bits ∈ 9..12`, a signed comparison (30_encoding R100, 42_ds18b20 R193). -/
def bitsInRange (bits : Word) : Bool := 9 ≤ bits.toInt && bits.toInt ≤ 12

/-- The configuration byte `((bits - 9) << 5) | 0x1F` (30_encoding R105), 8-bit unsigned (R238). -/
def configByte (bits : Word) : Byte := ((bits - 9).setWidth 8 <<< 5) ||| 0x1F#8

/-- `cfg.precision` "defaults to 4 when zero or negative" (41_quadrature R164). -/
def effectivePrecision (p : Word) : Word := if p.toInt ≤ 0 then 4 else p

/-- A 32-bit result in the `data` field, upper half zero (30_encoding R95). -/
def data32 (v : Word) : BitVec 64 := v.setWidth 64

/-- The position `tdiv(counter, precision)` (41_quadrature R165, 00_scope R7). -/
def positionOf (counter precision : Word) : Word :=
  BitVec.ofInt 32 (tdiv counter.toInt precision.toInt)

/-- One round of `crc8` on the register `c` and the data byte `d` (R230). -/
def crcBit (c d : Byte) : Byte :=
  if (c ^^^ d) &&& 1#8 = 1#8 then (c >>> 1) ^^^ 0x8C#8 else c >>> 1

/-- `n` rounds, the data byte shifted right after each (R230). -/
def crcBits : Nat → Byte → Byte → Byte
  | 0, c, _ => c
  | n + 1, c, d => crcBits n (crcBit c d) (d >>> 1)

/-- One byte into the register (R230). -/
def crcByte (c d : Byte) : Byte := crcBits 8 c d

/-- `crc8` of a byte array, initial register 0x00 (R230). -/
def crc8 (bytes : List Byte) : Byte := bytes.foldl crcByte 0x00#8

/-- "A buffer of n+1 bytes validates when crc8(buf[0..n-1]) = buf[n]" for a ROM id, n = 7 (42_ds18b20 R197,
30_encoding R106). -/
def romValid (r : RomId) : Bool := crc8 (r.toList.take 7) == r[7]

/-- The same for the scratchpad, n = 8 (42_ds18b20 R197, 30_encoding R104). -/
def scratchpadValid (v : Vector Byte 9) : Bool := crc8 (v.toList.take 8) == v[8]

/-- The raw temperature: `raw = (msb << 8) | lsb` (20_memory R61, R236). -/
def rawTemp (lsb msb : Byte) : BitVec 16 := msb ++ lsb

/-- `decode_temp` (R236): sign extension, times 625, divided by 10 toward zero, all exact. -/
def decodeTemp (lsb msb : Byte) : Word :=
  BitVec.ofInt 32 (tdiv ((rawTemp lsb msb).toInt * 625) 10)

/-- The pair `A ++ B` (30_encoding R107). -/
def samplePair (a b : Bool) : BitVec 2 := BitVec.ofBool a ++ BitVec.ofBool b

/-- The table `LUT` (30_encoding R108). -/
def lut (idx : BitVec 4) : Int :=
  match idx.toNat with
  | 0 => 0
  | 1 => -1
  | 2 => 1
  | 3 => 0
  | 4 => 1
  | 5 => 0
  | 6 => 0
  | 7 => -1
  | 8 => -1
  | 9 => 0
  | 10 => 0
  | 11 => 1
  | 12 => 0
  | 13 => 1
  | 14 => -1
  | _ => 0

end Sys2Proof.Machine
end

