-- ==== Sys2Proof/Machine/Ops.lean ====
section
/-! DEFINITION. The named operations over State: the ends of a command (`complete`, and `raise`, the
block's exception entry), the return from one (the host consuming the response), the command latch, the
sample of the line, the sequencer's advance and reset. -/

namespace Sys2Proof.Machine

/-- `raise K` (60_exceptions R266): the line released, the response `(K, 0)`, the sequencer Idle. That
`Q.Configure` also sets `q_state` stands in its meaning. -/
def raise (k : Status) (s : State) : State :=
  { s with dqOe := false, rspStatus := k, rspData := 0, rspValid := true, seq := .idle }

/-- `complete(data)` (00_scope R8): the response `(OK, data)`, the sequencer Idle. -/
def complete (data : BitVec 64) (s : State) : State :=
  { s with rspStatus := .ok, rspData := data, rspValid := true, seq := .idle }

/-- The host consumes the response (10_state R20, R34); after it the next command is accepted as usual, the
block's "return from trap" (60_exceptions R267). -/
def consume (s : State) : State := { s with rspValid := false }

/-- The latch at accept: every field of the command word (10_state R33, 30_encoding R90). -/
def latchWord (w : CmdWord) (s : State) : State :=
  { s with cmdOp := w.op, cmdRp := w.rp, cmdArg := w.arg, cmdRom := w.rom }

/-- The latched `rom_id` a meaning runs on: `rp` and, when present, the eight bytes (30_encoding R100). -/
def latchRomId (rid : Option RomId) (s : State) : State :=
  match rid with
  | none => { s with cmdRp := false }
  | some r => { s with cmdRp := true, cmdRom := r }

/-- The latched `arg` a meaning runs on. -/
def latchArg (v : Word) (s : State) : State := { s with cmdArg := v }

/-- The level of `dq_in` at sample number `n`: the environment's answer, or a free value where the list
gives none (40_onewire_link R141; log entry 3). -/
def levelAt (answers : List Bool) (n : Nat) : Bool :=
  match answers[n]? with
  | some b => b
  | none => Config.freeDqIn n

/-- `DQ.Sample` (40_onewire_link R130): the level goes to `s`, the line is not driven or released. -/
def sampleDq (s : State) : State :=
  { s with dqSampled := levelAt s.answers s.samples, samples := s.samples + 1 }

/-- The position `n` steps further in the same command (10_state R30). -/
def Seq.bump (n : Nat) : Seq → Seq
  | .idle => .idle
  | .busy op k => .busy op (k + n)

/-- "Each step ends by moving to the next" (10_state R30). -/
def advance (s : State) : State := { s with seq := s.seq.bump 1 }

/-- One wire event at the end of the trace (40_onewire_link R140). -/
def emit (e : WireEvent) (s : State) : State := { s with trace := s.trace ++ [e] }

/-- The synchronised pair `ab_now` (41_quadrature R162). -/
def State.abNow (s : State) : BitVec 2 := samplePair s.encA s.encB

/-- Every element of 10_state R44 at its reset value; what is outside the block (input levels, what is
still to come from outside, the trace already seen, the parameters) is left (70_reset R300, R301). -/
def resetBlock (s : State) : State :=
  { State.reset with
    rstN := s.rstN, encA := s.encA, encB := s.encB, cmds := s.cmds, rspReady := s.rspReady
    events := s.events, answers := s.answers, samples := s.samples, trace := s.trace
    waited := s.waited, cfg := s.cfg }

end Sys2Proof.Machine
end

