-- ==== Sys2Proof/Machine/Link.lean ====
section
/-! DEFINITION. The one-wire link layer (40_onewire_link.md): pad actions, the micro-operations of the OW
engine, the straight-line code of `OW.reset`, `OW.write_bit`, `OW.write_byte`, `OW.read_bit`,
`OW.read_byte` and `OW.select`, and the engine that runs such code. -/

namespace Sys2Proof.Machine

/-- The four pad actions (R130). -/
inductive PadAction where
  | driveLow
  | release
  | sample
  | delay (t : SlotParam)
deriving DecidableEq, Repr

/-- The steps of the OW engine (10_state R30): pad actions, and the state writes, checks and ends the
pseudocode of the one-wire commands is made of. -/
inductive Micro where
  /-- One pad action. -/
  | pad (a : PadAction)
  /-- `presence <- (s == 0)`, the end of `OW.reset` (R134). -/
  | setPresence
  /-- `if p == 0: raise NotConnected` (42_ds18b20 R198). -/
  | needPresence
  /-- The end of `OW.write_byte(b)` (R136). -/
  | sent (b : Byte)
  /-- `v <- 0`, the start of `OW.read_byte` (R137). -/
  | clearByte
  /-- `v[i] <- s`, the end of one read slot (R137, R138). -/
  | takeBit (i : Nat)
  /-- The end of `OW.read_byte` (R137). -/
  | received
  /-- `rom_buf[i] <- v` (42_ds18b20 R192). -/
  | storeRom (i : Fin 8)
  /-- `scratchpad[i] <- v` (42_ds18b20 R196). -/
  | storeScratch (i : Fin 9)
  /-- `if crc8(rom_buf[0..6]) != rom_buf[7]: raise CRCMismatch` (R192). -/
  | checkRom
  /-- `if crc8(scratchpad[0..7]) != scratchpad[8]: raise CRCMismatch` (R196). -/
  | checkScratch
  /-- `resolution <- arg[3:0]` (R193). -/
  | keepResolution
  /-- `ow_state <- st` (R194, R196). -/
  | setOwState (st : OwState)
  /-- `complete(0)`. -/
  | completeZero
  /-- `complete(rom_buf[7] ++ ... ++ rom_buf[0])` (R192). -/
  | completeRom
  /-- `complete(zext_64(decode_temp(scratchpad[0], scratchpad[1])))` (R196). -/
  | completeTemp
deriving DecidableEq, Repr

/-- What a pad action does (R130). `Delay(T)` is one step that adds its lower bound to `waited`. -/
def padStep (a : PadAction) (s : State) : State :=
  match a with
  | .driveLow => { s with dqOe := true }
  | .release => { s with dqOe := false }
  | .sample => sampleDq s
  | .delay t => { s with waited := s.waited + s.cfg.times.get t }

/-- `v[i] <- b`. -/
def setBit (v : Byte) (i : Nat) (b : Bool) : Byte := v ||| ((BitVec.ofBool b).setWidth 8 <<< i)

/-- One step of the OW engine. -/
def microStep (m : Micro) (s : State) : State :=
  match m with
  | .pad a => advance (padStep a s)
  | .setPresence => advance (emit (.reset (!s.dqSampled)) { s with presence := !s.dqSampled })
  | .needPresence => if s.presence then advance s else raise .notConnected s
  | .sent b => advance (emit (.sent b) s)
  | .clearByte => advance { s with shiftReg := 0 }
  | .takeBit i => advance { s with shiftReg := setBit s.shiftReg i s.dqSampled }
  | .received => advance (emit (.received s.shiftReg) s)
  | .storeRom i => advance { s with romBuf := s.romBuf.set i s.shiftReg }
  | .storeScratch i => advance { s with scratchpad := s.scratchpad.set i s.shiftReg }
  | .checkRom => if romValid s.romBuf then advance s else raise .crcMismatch s
  | .checkScratch => if scratchpadValid s.scratchpad then advance s else raise .crcMismatch s
  | .keepResolution => advance { s with resolution := s.cmdArg.setWidth 4 }
  | .setOwState st => advance { s with owState := st }
  | .completeZero => complete 0 s
  | .completeRom => complete (bitsOfRom s.romBuf) s
  | .completeTemp => complete (data32 (decodeTemp s.scratchpad[0] s.scratchpad[1])) s

/-- `OW.reset()` (R134), then `presence <- (s == 0)` and its wire event. -/
def resetCode : List Micro :=
  [.pad .driveLow, .pad (.delay .rstl), .pad .release, .pad (.delay .pds), .pad .sample,
   .pad (.delay .rstr), .setPresence]

/-- `ow_begin()` (42_ds18b20 R198). -/
def beginCode : List Micro := resetCode ++ [.needPresence]

/-- `OW.write_bit(b)` (R135). -/
def writeBitCode (b : Bool) : List Micro :=
  if b then [.pad .driveLow, .pad (.delay .w1l), .pad .release, .pad (.delay .w1r)]
  else [.pad .driveLow, .pad (.delay .w0l), .pad .release, .pad (.delay .w0r)]

/-- `OW.write_byte(b)` (R136): bits 0 to 7 in this order (20_memory R63). -/
def writeByteCode (b : Byte) : List Micro :=
  [0, 1, 2, 3, 4, 5, 6, 7].flatMap (fun i => writeBitCode (b.getLsbD i)) ++ [.sent b]

/-- `OW.read_bit()` (R138). -/
def readBitCode : List Micro :=
  [.pad .driveLow, .pad (.delay .rdl), .pad .release, .pad (.delay .rds), .pad .sample,
   .pad (.delay .rdr)]

/-- `OW.read_byte()` (R137): the first bit received is bit 0. -/
def readByteCode : List Micro :=
  .clearByte :: [0, 1, 2, 3, 4, 5, 6, 7].flatMap (fun i => readBitCode ++ [.takeBit i]) ++ [.received]

/-- Bytes in ascending index order (20_memory R62). -/
def writeBytesCode (bs : List Byte) : List Micro := bs.flatMap writeByteCode

/-- The bytes `OW.select` sends (R139): Skip ROM, or Match ROM and the eight bytes of the id. -/
def selectBytes (rp : Bool) (rom : RomId) : List Byte := if rp then 0x55 :: rom.toList else [0xCC]

/-- `OW.select(rp, rom)` (R139). -/
def selectCode (rp : Bool) (rom : RomId) : List Micro := writeBytesCode (selectBytes rp rom)

/-- `for i in 0, ..., 7: rom_buf[i] <- OW.read_byte()` (42_ds18b20 R192). -/
def readRomCode : List Micro :=
  ([0, 1, 2, 3, 4, 5, 6, 7] : List (Fin 8)).flatMap (fun i => readByteCode ++ [.storeRom i])

/-- `for i in 0, ..., 8: scratchpad[i] <- OW.read_byte()` (42_ds18b20 R196). -/
def readScratchCode : List Micro :=
  ([0, 1, 2, 3, 4, 5, 6, 7, 8] : List (Fin 9)).flatMap (fun i => readByteCode ++ [.storeScratch i])

/-- The steps of a wire command after its checks, from its latched operands (42_ds18b20 R192, R193, R194,
R196). -/
def commandCode (op : WireCmd) (rp : Bool) (rom : RomId) (arg : Word) : List Micro :=
  match op with
  | .readAddress =>
    beginCode ++ writeBytesCode [0x33] ++ readRomCode ++ [.checkRom, .completeRom]
  | .setResolution =>
    beginCode ++ selectCode rp rom ++ writeBytesCode [0x4E, 0xFF, 0x00, configByte arg] ++
      [.keepResolution, .completeZero]
  | .requestTemperature =>
    beginCode ++ selectCode rp rom ++ writeBytesCode [0x44] ++ [.setOwState .converting, .completeZero]
  | .readTemperature =>
    beginCode ++ selectCode rp rom ++ writeBytesCode [0xBE] ++ readScratchCode ++
      [.checkScratch, .setOwState .ready, .completeTemp]

/-- The code of the command `op` under the present latch, which does not change while Busy (10_state R30). -/
def State.code (s : State) (op : WireCmd) : List Micro := commandCode op s.cmdRp s.cmdRom s.cmdArg

/-- Run straight-line code until it ends the command or is used up (00_scope R8). -/
def runCode : List Micro → State → State
  | [], s => s
  | m :: ms, s =>
    match (microStep m s).seq with
    | .idle => microStep m s
    | .busy _ _ => runCode ms (microStep m s)

/-- Run the command in flight to its response; nothing when Idle. -/
def runOut (s : State) : State :=
  match s.seq with
  | .idle => s
  | .busy op k => runCode ((s.code op).drop k) s

/-- One step of the OW engine at step `k` of command `op`. -/
def engineStep (op : WireCmd) (k : Nat) (s : State) : Host.Outcome State Fault Refusal :=
  match (s.code op)[k]? with
  | some m => .next (microStep m s)
  | none => .fault .noSuchStep

end Sys2Proof.Machine
end

