-- ==== Sys2Proof/Machine/OneWire.lean ====
section
/-! DEFINITION. The five one-wire commands (42_ds18b20.md). A wire command is its checks and its first
position (`start...`), taken in the step that accepts it (10_state R31), and then the steps of its code; the
meaning is the whole of it, from accept to response. -/

namespace Sys2Proof.Machine

/-- `ow_check_state()` (R199): in `Created` the command ends with `InvalidConfig`, no wire event. -/
def whenConfigured (go : State → State) (s : State) : State :=
  if s.owState = .created then raise .invalidConfig s else go s

/-- The first position of a wire command. -/
def enter (op : WireCmd) (s : State) : State := { s with seq := .busy op 0 }

/-- `OW.Configure()` (R190), one step. -/
def startOwConfigure (s : State) : State :=
  complete 0 { s with dqOe := false, owState := .ready }

/-- `ReadAddress()` up to its first wire event (R192). -/
def startReadAddress (s : State) : State := whenConfigured (enter .readAddress) s

/-- `SetResolution(rom_id, bits)` up to its first wire event (R193): the state check, then the range
check, which ends the command with OK and no wire event. -/
def startSetResolution (rid : Option RomId) (bits : Word) (s : State) : State :=
  whenConfigured
    (fun s => if bitsInRange bits then enter .setResolution s else complete 0 s)
    (latchArg bits (latchRomId rid s))

/-- `RequestTemperature(rom_id)` up to its first wire event (R194). -/
def startRequestTemperature (rid : Option RomId) (s : State) : State :=
  whenConfigured (enter .requestTemperature) (latchRomId rid s)

/-- `ReadTemperature(rom_id)` up to its first wire event (R196). -/
def startReadTemperature (rid : Option RomId) (s : State) : State :=
  whenConfigured (enter .readTemperature) (latchRomId rid s)

/-- `OW.Configure()` (R190). -/
def execOwConfigure (s : State) : Host.Outcome State Fault Refusal := .next (startOwConfigure s)

/-- `ReadAddress()` (R192). -/
def execReadAddress (s : State) : Host.Outcome State Fault Refusal := .next (runOut (startReadAddress s))

/-- `SetResolution(rom_id, bits)` (R193). -/
def execSetResolution (rid : Option RomId) (bits : Word) (s : State) :
    Host.Outcome State Fault Refusal :=
  .next (runOut (startSetResolution rid bits s))

/-- `RequestTemperature(rom_id)` (R194). -/
def execRequestTemperature (rid : Option RomId) (s : State) : Host.Outcome State Fault Refusal :=
  .next (runOut (startRequestTemperature rid s))

/-- `ReadTemperature(rom_id)` (R196). -/
def execReadTemperature (rid : Option RomId) (s : State) : Host.Outcome State Fault Refusal :=
  .next (runOut (startReadTemperature rid s))

end Sys2Proof.Machine
end

