-- ==== Sys2Proof/Machine/Quadrature.lean ====
section
/-! DEFINITION. The quadrature decoder core (41_quadrature.md): the edge event and the three commands. -/

namespace Sys2Proof.Machine

/-- The index of an edge event: the newest sample of the history, then the sample (R160). -/
def edgeIndex (s : State) (a b : Bool) : BitVec 4 := s.oldAb.extractLsb' 0 2 ++ samplePair a b

/-- `QEdge(a, b)` (R160), one atomic step of the QDEC engine: total on every sample. -/
def edgeEvent (a b : Bool) (s : State) : State :=
  { s with
    oldAb := edgeIndex s a b
    counter := s.counter + BitVec.ofInt 32 (lut (edgeIndex s a b)) }

/-- An edge event delivered with the pins at `(a, b)`: taken in `Ready`, discarded in `Created` and
`Failed` (R160, R163). The detector's last sample follows (R162). -/
def deliverEdge (a b : Bool) (s : State) : State :=
  if s.qState = .ready then
    edgeEvent a b { s with encA := a, encB := b, abPrev := samplePair a b }
  else { s with encA := a, encB := b }

/-- The pins change to `(a, b)`: in `Ready` one edge event exactly when the pair differs from `ab_prev`
(R162). -/
def changePins (a b : Bool) (s : State) : State :=
  if samplePair a b = s.abPrev then { s with encA := a, encB := b } else deliverEdge a b s

/-- `Q.Configure(cfg.precision)` (R164), one step. Failing, it sets `q_state` and raises (60_exceptions
R266). -/
def startQConfigure (p : Word) (s : State) : State :=
  if s.cfg.edgeIrqSupported then
    complete 0
      { s with encPuEn := true, precision := effectivePrecision p, abPrev := s.abNow, qState := .ready }
  else raise .unsupported { s with encPuEn := true, qState := .failed }

/-- The state check of `Position` and `SetPosition` (R167). -/
def whenArmed (go : State → State) (s : State) : State :=
  match s.qState with
  | .created => raise .invalidConfig s
  | .failed => raise .unsupported s
  | .ready => go s

/-- `Position()` (R165), one step. -/
def startPosition (s : State) : State :=
  whenArmed (fun s => complete (data32 (positionOf s.counter s.precision)) s) s

/-- `SetPosition(v)` (R166), one step: the product wraps modulo 2^32. -/
def startSetPosition (v : Word) (s : State) : State :=
  whenArmed (fun s => complete 0 { s with counter := v * s.precision }) s

/-- `Q.Configure(cfg.precision)` (R164). -/
def execQConfigure (p : Word) (s : State) : Host.Outcome State Fault Refusal := .next (startQConfigure p s)

/-- `Position()` (R165). -/
def execPosition (s : State) : Host.Outcome State Fault Refusal := .next (startPosition s)

/-- `SetPosition(v)` (R166). -/
def execSetPosition (v : Word) (s : State) : Host.Outcome State Fault Refusal := .next (startSetPosition v s)

end Sys2Proof.Machine
end

