-- ==== Sys2Proof/Machine/Reserved.lean ====
section
/-! DEFINITION. The reserved opcodes (30_encoding R97): accepted, `Unsupported`, nothing else. -/

namespace Sys2Proof.Machine

/-- "changes no state other than the response register, produces no wire event, and completes in one step
with status = Unsupported, data = 0" (R97). -/
def reservedOpcode (s : State) : State := raise .unsupported s

/-- Row `RESERVED.0`: op 0x0. -/
def execReserved0 (s : State) : Host.Outcome State Fault Refusal := .next (reservedOpcode s)

/-- Row `RESERVED.6_7`: op 0x6 or 0x7. -/
def execReserved67 (_op : BitVec 4) (s : State) : Host.Outcome State Fault Refusal :=
  .next (reservedOpcode s)

/-- Row `RESERVED.B`: op 0xB. -/
def execReservedB (s : State) : Host.Outcome State Fault Refusal := .next (reservedOpcode s)

/-- Row `RESERVED.C_F`: op 0xC to 0xF. -/
def execReservedCF (_op : BitVec 4) (s : State) : Host.Outcome State Fault Refusal :=
  .next (reservedOpcode s)

end Sys2Proof.Machine
end

