-- ==== Sys2Proof/Machine/Dispatch.lean ====
section
/-! DEFINITION. One arm per instruction: a command from its accept to its response. -/

namespace Sys2Proof.Machine

def exec (i : Instr) (s : State) : Host.Outcome State Fault Refusal :=
  match i with
  | .owConfigure => Sys2Proof.Machine.execOwConfigure s
  | .readAddress => Sys2Proof.Machine.execReadAddress s
  | .setResolution rom bits => Sys2Proof.Machine.execSetResolution rom bits s
  | .requestTemperature rom => Sys2Proof.Machine.execRequestTemperature rom s
  | .readTemperature rom => Sys2Proof.Machine.execReadTemperature rom s
  | .qConfigure p => Sys2Proof.Machine.execQConfigure p s
  | .position => Sys2Proof.Machine.execPosition s
  | .setPosition v => Sys2Proof.Machine.execSetPosition v s
  | .reserved0 => Sys2Proof.Machine.execReserved0 s
  | .reserved67 op => Sys2Proof.Machine.execReserved67 op s
  | .reservedB => Sys2Proof.Machine.execReservedB s
  | .reservedCF op => Sys2Proof.Machine.execReservedCF op s

end Sys2Proof.Machine
end

