-- ==== Sys2Proof/Machine/Port.lean ====
section
/-! DEFINITION. The ports: outside events landing (41_quadrature R162, R163; 70_reset R300, R301;
30_encoding R90), the acceptance of a command word and its first step, the consumption of a response. -/

namespace Sys2Proof.Machine

/-- `rst_n` driven to a level (70_reset R300, R301): low resets the block and abandons a command in
flight with no response; the state has its reset values until and when the level rises. -/
def driveReset (level : Bool) (s : State) : State :=
  if level && s.rstN then s else { resetBlock s with rstN := level }

/-- An outside event lands (log entry 2). -/
def land (e : Event) (s : State) : State :=
  match e with
  | .present w => { s with cmds := s.cmds ++ [w] }
  | .rspReady level => { s with rspReady := level }
  | .pins a b => changePins a b s
  | .qEdge a b => deliverEdge a b s
  | .rst level => driveReset level s

/-- The outside event that lands now, if any, and the state with it taken off the list. -/
def popDue (s : State) : Option (Event × State) :=
  match s.events with
  | (0, e) :: rest => some (e, { s with events := rest })
  | _ => none

/-- One step passes in which no outside event lands. -/
def tick (s : State) : State :=
  match s.events with
  | (n + 1, e) :: rest => { s with events := (n, e) :: rest }
  | _ => s

/-- Accept a command word: it leaves the port and its fields are latched (30_encoding R90). -/
def accept (w : CmdWord) (rest : List CmdWord) (s : State) : State :=
  latchWord w { s with cmds := rest }

/-- The step that accepts a command: all of a one-step command, or the checks of a wire command and its
first position (10_state R31). -/
def beginInstr (i : Instr) (s : State) : State :=
  match i with
  | .owConfigure => startOwConfigure s
  | .readAddress => startReadAddress s
  | .setResolution rom bits => startSetResolution rom bits s
  | .requestTemperature rom => startRequestTemperature rom s
  | .readTemperature rom => startReadTemperature rom s
  | .qConfigure p => startQConfigure p s
  | .position => startPosition s
  | .setPosition v => startSetPosition v s
  | .reserved0 => reservedOpcode s
  | .reserved67 _ => reservedOpcode s
  | .reservedB => reservedOpcode s
  | .reservedCF _ => reservedOpcode s

/-- The command port with the sequencer Idle (30_encoding R90). A pending response is consumed if the host
is ready, and no command is accepted before that. A command is run whole when no outside event is still to
come, and one step at a time when one is (log entry 1). -/
def portStep (s : State) : Host.Outcome State Fault Refusal :=
  if s.rspValid then
    if s.rspReady then .next (consume (tick s)) else .next (tick s)
  else
    match s.cmds with
    | [] => .next (tick s)
    | w :: rest =>
      match s.events with
      | [] => exec (decode w) (accept w rest s)
      | _ :: _ => .next (beginInstr (decode w) (accept w rest (tick s)))

/-- The block's own step: the OW engine when Busy, the command port when Idle, nothing in reset. -/
def blockStep (s : State) : Host.Outcome State Fault Refusal :=
  if s.rstN then
    match s.seq with
    | .busy op k => engineStep op k (tick s)
    | .idle => portStep s
  else .next (tick s)

end Sys2Proof.Machine
end

