-- ==== Sys2Proof/Machine/Step.lean ====
section
/-! DEFINITION. One step of the machine: an outside event that is due lands; otherwise the block moves. -/

namespace Sys2Proof.Machine

/-- One step. -/
def step (s : State) : Host.Outcome State Fault Refusal :=
  match popDue s with
  | some (e, s') => .next (land e s')
  | none => blockStep s

/-- The host presents the word `w` at a block that is ready for it: out of reset, Idle with the line
released, no response pending, no outside event to come, the word at the head of the port (log entry 14). -/
def State.withFetchWord (s : State) (nbits w : Nat) : State :=
  { s with
    rstN := true
    events := []
    seq := .idle
    dqOe := false
    rspValid := false
    cmds := tableWord nbits w :: s.cmds }

end Sys2Proof.Machine
end

