-- ==== Sys2Proof/Machine/View.lean ====
section
/-! DEFINITION. The terms statements are written in: what the wire environment answers next, the events a
command puts on the wire, the tables of 42_ds18b20 R200 and 60_exceptions R261, the durations of
70_reset R325, the turns of an encoder. Nothing here is called by the step. -/

namespace Sys2Proof.Machine

/-- The table of 10_state R44, but for the elements it leaves unspecified. -/
structure State.AtReset (s : State) : Prop where
  oldAb : s.oldAb = 0b0011#4
  counter : s.counter = 0
  precision : s.precision = 4
  qState : s.qState = .created
  encPuEn : s.encPuEn = false
  owState : s.owState = .created
  scratchpad : s.scratchpad = #v[0, 0, 0, 0, 0, 0, 0, 0, 0]
  romBuf : s.romBuf = #v[0, 0, 0, 0, 0, 0, 0, 0]
  resolution : s.resolution = 12
  seq : s.seq = .idle
  rspValid : s.rspValid = false
  rspStatus : s.rspStatus = .ok
  rspData : s.rspData = 0
  presence : s.presence = false
  dqOe : s.dqOe = false

/-- The presence bit of the next `OW.reset`: the line sampled low (40_onewire_link R134). -/
def State.nextPresence (s : State) : Bool := !levelAt s.answers s.samples

/-- The byte whose bit `i` is the level at sample `n + i` (40_onewire_link R137, 20_memory R63). -/
def byteAt (answers : List Bool) (n : Nat) : Byte :=
  BitVec.ofBool (levelAt answers (n + 7)) ++ BitVec.ofBool (levelAt answers (n + 6)) ++
  BitVec.ofBool (levelAt answers (n + 5)) ++ BitVec.ofBool (levelAt answers (n + 4)) ++
  BitVec.ofBool (levelAt answers (n + 3)) ++ BitVec.ofBool (levelAt answers (n + 2)) ++
  BitVec.ofBool (levelAt answers (n + 1)) ++ BitVec.ofBool (levelAt answers n)

/-- The `j`-th byte the environment gives after the presence sample. -/
def State.nextByte (s : State) (j : Nat) : Byte := byteAt s.answers (s.samples + 1 + 8 * j)

/-- The eight bytes the next `ReadAddress` receives. -/
def State.nextRom (s : State) : RomId :=
  #v[s.nextByte 0, s.nextByte 1, s.nextByte 2, s.nextByte 3, s.nextByte 4, s.nextByte 5, s.nextByte 6,
     s.nextByte 7]

/-- The nine bytes the next `ReadTemperature` receives. -/
def State.nextScratchpad (s : State) : Vector Byte 9 :=
  #v[s.nextByte 0, s.nextByte 1, s.nextByte 2, s.nextByte 3, s.nextByte 4, s.nextByte 5, s.nextByte 6,
     s.nextByte 7, s.nextByte 8]

/-- The bytes `OW.select(rom_id)` sends (40_onewire_link R139). -/
def selectedBytes (rid : Option RomId) : List Byte :=
  match rid with
  | none => [0xCC]
  | some r => 0x55 :: r.toList

/-- The wire events of sending bytes. -/
def sentAll (bs : List Byte) : List WireEvent := bs.map .sent

/-- The wire events of receiving bytes. -/
def receivedAll (bs : List Byte) : List WireEvent := bs.map .received

/-- The one-wire commands that look at `ow_state` first (42_ds18b20 R199). -/
def checksOwState : Instr → Bool
  | .readAddress => true
  | .setResolution _ _ => true
  | .requestTemperature _ => true
  | .readTemperature _ => true
  | .owConfigure => false
  | .qConfigure _ => false
  | .position => false
  | .setPosition _ => false
  | .reserved0 => false
  | .reserved67 _ => false
  | .reservedB => false
  | .reservedCF _ => false

/-- The commands of the quadrature core (30_encoding R96). -/
def isQuadrature : Instr → Bool
  | .qConfigure _ => true
  | .position => true
  | .setPosition _ => true
  | .owConfigure => false
  | .readAddress => false
  | .setResolution _ _ => false
  | .requestTemperature _ => false
  | .readTemperature _ => false
  | .reserved0 => false
  | .reserved67 _ => false
  | .reservedB => false
  | .reservedCF _ => false

/-- The reserved opcodes (30_encoding R97). -/
def isReserved : Instr → Bool
  | .reserved0 => true
  | .reserved67 _ => true
  | .reservedB => true
  | .reservedCF _ => true
  | .owConfigure => false
  | .readAddress => false
  | .setResolution _ _ => false
  | .requestTemperature _ => false
  | .readTemperature _ => false
  | .qConfigure _ => false
  | .position => false
  | .setPosition _ => false

/-- Whether the command reaches its reset of the line: configured and, for `SetResolution`, in range. -/
def reachesWire (i : Instr) (s : State) : Bool :=
  checksOwState i && s.owState != .created &&
    (match i with
     | .setResolution _ bits => bitsInRange bits
     | _ => true)

/-- How a command ends: the table of 60_exceptions R261 in the order of R265. -/
def endStatus (i : Instr) (s : State) : Status :=
  match i with
  | .owConfigure => .ok
  | .readAddress =>
    if s.owState = .created then .invalidConfig
    else if s.nextPresence = false then .notConnected
    else if crc8 (s.nextRom.toList.take 7) ≠ s.nextRom[7] then .crcMismatch else .ok
  | .setResolution _ bits =>
    if s.owState = .created then .invalidConfig
    else if bits.toInt < 9 ∨ 12 < bits.toInt then .ok
    else if s.nextPresence = false then .notConnected else .ok
  | .requestTemperature _ =>
    if s.owState = .created then .invalidConfig
    else if s.nextPresence = false then .notConnected else .ok
  | .readTemperature _ =>
    if s.owState = .created then .invalidConfig
    else if s.nextPresence = false then .notConnected
    else if crc8 (s.nextScratchpad.toList.take 8) ≠ s.nextScratchpad[8] then .crcMismatch else .ok
  | .qConfigure _ => if s.cfg.edgeIrqSupported then .ok else .unsupported
  | .position | .setPosition _ =>
    match s.qState with
    | .created => .invalidConfig
    | .failed => .unsupported
    | .ready => .ok
  | .reserved0 | .reserved67 _ | .reservedB | .reservedCF _ => .unsupported

/-- `ow_state` after a command that ends `OK` (42_ds18b20 R200); the other commands leave it. -/
def owStateAfterOk (i : Instr) (st : OwState) : OwState :=
  match i with
  | .owConfigure => .ready
  | .requestTemperature _ => .converting
  | .readTemperature _ => .ready
  | .readAddress | .setResolution _ _ | .qConfigure _ | .position | .setPosition _ | .reserved0
  | .reserved67 _ | .reservedB | .reservedCF _ => st

/-- Whether two command words agree on every field their opcode reads (30_encoding R92, R98). -/
def agreeOnReadFields (w w' : CmdWord) : Bool :=
  w.op == w'.op &&
    (match w.op.toNat with
     | 0x3 => w.romId == w'.romId && w.arg == w'.arg
     | 0x4 => w.romId == w'.romId
     | 0x5 => w.romId == w'.romId
     | 0x8 => w.arg == w'.arg
     | 0xA => w.arg == w'.arg
     | _ => true)

/-- `n` steps of the machine, stopping at a fault. -/
def runSteps : Nat → State → Host.Outcome State Fault Refusal
  | 0, s => .next s
  | n + 1, s =>
    match step s with
    | .next t => runSteps n t
    | .fault f => .fault f
    | .refused r => .refused r

/-- Encoder events: those of the two pins (60_exceptions R270). -/
def isEncoderEvent : Event → Bool
  | .pins _ _ => true
  | .qEdge _ _ => true
  | .present _ => false
  | .rspReady _ => false
  | .rst _ => false

/-- Edge events in a row, each a sample `(A, B)`. -/
def edgeEvents (samples : List (Bool × Bool)) (s : State) : State :=
  samples.foldl (fun s ab => edgeEvent ab.1 ab.2 s) s

/-- The current sample in the history (10_state R21). -/
def State.currentSample (s : State) : BitVec 2 := s.oldAb.extractLsb' 0 2

/-- One step of the cycle `11 → 10 → 00 → 01 → 11` (41_quadrature R169). -/
def forwardStep (p c : BitVec 2) : Bool :=
  (p == 3 && c == 2) || (p == 2 && c == 0) || (p == 0 && c == 1) || (p == 1 && c == 3)

/-- Samples each of which differs from the one before in exactly one bit: a step of the cycle one way or
the other (30_encoding R109, 41_quadrature R169). -/
def legalSamples : BitVec 2 → List (Bool × Bool) → Bool
  | _, [] => true
  | p, ab :: rest =>
    (forwardStep p (samplePair ab.1 ab.2) || forwardStep (samplePair ab.1 ab.2) p) &&
      legalSamples (samplePair ab.1 ab.2) rest

/-- The last of a row of samples. -/
def lastSample : BitVec 2 → List (Bool × Bool) → BitVec 2
  | p, [] => p
  | _, ab :: rest => lastSample (samplePair ab.1 ab.2) rest

/-- Net steps along the cycle `11 → 10 → 00 → 01 → 11`, four to a turn (41_quadrature R169). -/
def netSteps : BitVec 2 → List (Bool × Bool) → Int
  | _, [] => 0
  | p, ab :: rest =>
    (if forwardStep p (samplePair ab.1 ab.2) then 1
     else if forwardStep (samplePair ab.1 ab.2) p then -1 else 0) +
      netSteps (samplePair ab.1 ab.2) rest

/-- A byte array with one bit of one byte flipped (43_crc8_and_decode R234). -/
def flipBit (bs : List Byte) (pos : Nat) (bit : Nat) : List Byte :=
  bs.modify pos (fun b => b ^^^ (1#8 <<< bit))

/-- The wire bytes after the reset of a command that completes (70_reset R325, second column). -/
def wireBytes (i : Instr) : Nat :=
  match i with
  | .readAddress => 9
  | .setResolution none _ => 5
  | .setResolution (some _) _ => 13
  | .requestTemperature none => 2
  | .requestTemperature (some _) => 10
  | .readTemperature none => 11
  | .readTemperature (some _) => 19
  | .owConfigure | .qConfigure _ | .position | .setPosition _ | .reserved0 | .reserved67 _ | .reservedB
  | .reservedCF _ => 0

end Sys2Proof.Machine
end

