-- ==== Sys2Proof/Safety.lean ====
section
/-! DEFINITION. What every reachable state satisfies (10_state R40, and what the command rules add), and
the host's duty on a ROM id (10_state R41). -/

namespace Sys2Proof.Machine

/-- Whether the line is pulled low after these steps of a command, from a released line: the last
`DQ.DriveLow` or `DQ.Release` decides (10_state R35). -/
def lineAfter (ms : List Micro) : Bool :=
  ms.foldl (fun oe m =>
    match m with
    | .pad .driveLow => true
    | .pad .release => false
    | _ => oe) false

/-- The sequencer's part: the line is released when Idle (R35); when Busy the position exists, the line is
as the steps done leave it, no response is pending (R40), the latch holds the command (R33), the checks
that let the command reach the wire still hold, and the block is out of reset. -/
def State.seqInv (s : State) : Prop :=
  match s.seq with
  | .idle => s.dqOe = false
  | .busy op k =>
    k < (s.code op).length ∧ s.dqOe = lineAfter ((s.code op).take k) ∧ s.rspValid = false ∧
    s.cmdOp = op.opcode ∧ s.owState ≠ .created ∧ s.rstN = true ∧
    (op = .setResolution → bitsInRange s.cmdArg = true)

/-- The invariant: `precision ≥ 1`, `resolution ∈ {9,10,11,12}`, `rsp_valid` implies Idle (in `seqInv`),
the line released when Idle (R40); `BusError` never produced (60_exceptions R263); the edge detector armed
on the present levels while Ready (41_quadrature R162); in reset every element at its reset value
(70_reset R300). That `q_state`, `ow_state` and `old_ab` stay legal holds by their types. -/
structure State.Inv (s : State) : Prop where
  precision_pos : 1 ≤ s.precision.toInt
  resolution_legal : 9 ≤ s.resolution.toNat ∧ s.resolution.toNat ≤ 12
  no_bus_error : s.rspStatus ≠ .busError
  armed : s.qState = .ready → s.abPrev = s.abNow
  in_reset : s.rstN = false → resetBlock s = s
  sequencer : s.seqInv

/-- A host that keeps its duty passes a ROM id whose last byte is the CRC of the first seven (10_state
R41, 70_reset R314). The block does not check it. -/
def hostRomDuty (rid : Option RomId) : Bool :=
  match rid with
  | none => true
  | some r => romValid r

end Sys2Proof.Machine
end

