-- ==== Sys2Proof/Certificates/Slice0/Obligations.lean ====
section
/-! DEFINITION. The statements about the OWQ engine, for the provers. A statement quantifies over every
state, reachable or not, and so over every parameter (`cfg`), every answer of the wire environment
(`answers`, then the free value) and every outside event. -/

open Sys2Proof Sys2Proof.Machine

/-! ### Encoding (30_encoding.md) -/

/-- Decoding an encoded well-formed instruction gives it back, every operand at every value. -/
def Obligations.DecodeOfEncodeIsTheInstruction : Prop :=
  ∀ i : Instr, i.wellFormed = true → decode (encode i) = i

/-- Every one of the 2^104 command words decodes to a well-formed instruction with the word's own opcode,
and encoding that instruction gives a word that decodes to it again (R96, R97, R98). -/
def Obligations.EveryWordDecodesWellFormed : Prop :=
  ∀ w : CmdWord, (decode w).wellFormed = true ∧ (encode (decode w)).op = w.op ∧
    decode (encode (decode w)) = decode w

/-- Two command words that agree on `op` and on the fields that opcode reads decode to one instruction, and
running it after accepting either leaves the same state but for the latched fields (R92, R98). -/
def Obligations.IgnoredBitsDoNotMatter : Prop :=
  ∀ (w w' : CmdWord) (rest : List CmdWord) (s : State), agreeOnReadFields w w' = true →
    decode w = decode w' ∧
    ∃ t t', exec (decode w) (accept w rest s) = .next t ∧ exec (decode w') (accept w' rest s) = .next t' ∧
      t' = { t with cmdOp := t'.cmdOp, cmdRp := t'.cmdRp, cmdArg := t'.cmdArg, cmdRom := t'.cmdRom }

/-- Words of 95_test_vectors E1, E2, E3 decode to the commands they stand for. -/
def Obligations.WrittenOutWordsDecode : Prop :=
  decode 0x00000000000000000000000001#104 = .owConfigure ∧
  decode 0x3F01823A1E64FF2812345678F2#104 = .readAddress ∧
  decode 0x3F01823A1E64FF280000000C13#104 =
    .setResolution (some #v[0x28, 0xFF, 0x64, 0x1E, 0x3A, 0x82, 0x01, 0x3F]) 12 ∧
  decode 0x3F01823A1E64FF280000000004#104 = .requestTemperature none ∧
  decode 0x3F01823A1E64FF280000000015#104 =
    .readTemperature (some #v[0x28, 0xFF, 0x64, 0x1E, 0x3A, 0x82, 0x01, 0x3F]) ∧
  decode 0x0000000000000000FFFFFFFF08#104 = .qConfigure (-1) ∧
  decode 0x00000000000000000000000009#104 = .position ∧
  decode 0x0000000000000000FFFFFFFD0A#104 = .setPosition (-3) ∧
  decode 0x00000000000000000000000000#104 = .reserved0 ∧
  decode 0x00000000000000000000000007#104 = .reserved67 7 ∧
  decode 0x0000000000000000000000000B#104 = .reservedB ∧
  decode 0x0000000000000000000000000E#104 = .reservedCF 0xE

/-- The response word (R93): `status` in 2:0, zeros in 7:3, `data` in 71:8; the six status codes,
and codes 6 and 7 of none (R94). -/
def Obligations.ResponseWordLayout : Prop :=
  (∀ s : State, s.rspWord.extractLsb' 0 3 = s.rspStatus.code ∧ s.rspWord.extractLsb' 3 5 = 0 ∧
    s.rspWord.extractLsb' 8 64 = s.rspData) ∧
  Status.ok.code = 0 ∧ Status.busError.code = 1 ∧ Status.notConnected.code = 2 ∧
  Status.crcMismatch.code = 3 ∧ Status.invalidConfig.code = 4 ∧ Status.unsupported.code = 5 ∧
  (∀ s : State, s.rspStatus.code ≠ 6 ∧ s.rspStatus.code ≠ 7)

/-! ### Steps, ports, reset -/

/-- With the block out of reset, Idle, no response pending and no outside event to come, a step runs the
instruction of the word at the port, whole, on the state with that word taken and its fields latched (R90,
R33). -/
def Obligations.StepRunsTheDecodedCommand : Prop :=
  ∀ (s : State) (w : CmdWord) (rest : List CmdWord),
    s.rstN = true → s.events = [] → s.seq = .idle → s.rspValid = false → s.cmds = w :: rest →
    step s = exec (decode w)
      { s with
        cmds := rest, cmdOp := w.extractLsb' 0 4, cmdRp := w.getLsbD 4, cmdArg := w.extractLsb' 8 32
        cmdRom := romOfBits (w.extractLsb' 40 64) }

/-- The same with an outside event still to come: the step is the command's first, and while Busy with no
event due a step is one step of the OW engine (R30, R31; log entry 1). -/
def Obligations.StepIsOneEngineStepWhileEventsPend : Prop :=
  (∀ (s : State) (w : CmdWord) (rest : List CmdWord) (n : Nat) (e : Event) (es : List (Nat × Event)),
    s.rstN = true → s.events = (n + 1, e) :: es → s.seq = .idle → s.rspValid = false →
    s.cmds = w :: rest →
    step s = .next (beginInstr (decode w) (accept w rest { s with events := (n, e) :: es }))) ∧
  (∀ (s : State) (op : WireCmd) (k : Nat) (m : Micro), s.rstN = true → s.seq = .busy op k →
    popDue s = none → (s.code op)[k]? = some m → step s = .next (microStep m (tick s)))

/-- An outside event that is due lands, whatever the block is doing (R73, R272; the list of events is the
model's choice, log entry 2). -/
def Obligations.DueEventLandsFirst : Prop :=
  ∀ (s : State) (e : Event) (es : List (Nat × Event)), s.events = (0, e) :: es →
    step s = .next (land e { s with events := es })

/-- A command word presented while `cmd_ready = 0` is not accepted: it stays at the port and nothing is
latched (R90). -/
def Obligations.NoAcceptUnlessReady : Prop :=
  ∀ s t : State, popDue s = none → s.cmdReady = false → step s = .next t →
    t.cmds = s.cmds ∧ t.cmdOp = s.cmdOp ∧ t.cmdRp = s.cmdRp ∧ t.cmdArg = s.cmdArg ∧ t.cmdRom = s.cmdRom

/-- A pending response stays, unchanged, until the host is ready for it; then `rsp_valid` falls (R34;
a step of its own: the model's choice, log entry 18). -/
def Obligations.ResponseHeldUntilConsumed : Prop :=
  ∀ s : State, s.rstN = true → popDue s = none → s.seq = .idle → s.rspValid = true →
    step s = .next { tick s with rspValid := !s.rspReady }

/-- The reset values (R44): at the instant `rst_n` rises, from the instant it falls, and all the while it is
low. -/
def Obligations.ResetValues : Prop :=
  State.reset.AtReset ∧ (∀ s : State, (land (.rst false) s).AtReset) ∧
  (∀ s : State, s.rstN = false → (land (.rst true) s).AtReset) ∧
  (∀ s : State, s.Inv → s.rstN = false → s.AtReset)

/-- `rst_n` falling at any instant, also during a command: every element at its reset value, the line
released, no response, no wire event; what is outside the block is left. While it stays low and no outside
event lands nothing moves and no command is accepted (R300, R301). The values of the elements R44 leaves
unspecified are the model's choice (log entries 5 and 10). -/
def Obligations.ResetAbandonsTheCommand : Prop :=
  (∀ (s : State) (es : List (Nat × Event)), s.events = (0, .rst false) :: es →
    step s = .next { State.reset with
      rstN := false, encA := s.encA, encB := s.encB, cmds := s.cmds, rspReady := s.rspReady, events := es
      answers := s.answers, samples := s.samples, trace := s.trace, waited := s.waited, cfg := s.cfg }) ∧
  (∀ s : State, s.rstN = false → popDue s = none → step s = .next (tick s))

/-- The invariant holds right after reset. -/
def Obligations.ResetMeetsInvariant : Prop := State.reset.Inv

/-- Every step from a state that meets the invariant gives a state that meets it (R40). -/
def Obligations.StepKeepsInvariant : Prop :=
  ∀ s t : State, s.Inv → step s = .next t → t.Inv

/-- From a state that meets the invariant the block never stops: every step has a next state (R13). -/
def Obligations.StepAlwaysHasNextState : Prop :=
  ∀ s : State, s.Inv → ∃ t, step s = .next t

/-- With no outside event to come, a command taken one step at a time comes in finitely many steps of the
machine to the very state `exec` gives for the whole of it. -/
def Obligations.StepsOfACommandReachExecResult : Prop :=
  ∀ (i : Instr) (s : State), s.events = [] → s.rstN = true →
    ∃ (n : Nat) (t : State), exec i s = .next t ∧ runSteps n (beginInstr i s) = .next t

/-- An encoder event that lands at any point of a command leads to the same state as the same event landing
when the command has ended: the wire events and the result do not depend on it, nor the counter on the
command (R73, R74). -/
def Obligations.EdgeEventInsideCommandEqualsAfter : Prop :=
  ∀ (s : State) (e : Event) (op : WireCmd) (k : Nat), isEncoderEvent e = true → s.seq = .busy op k →
    runOut (land e s) = land e (runOut s) ∧
    (runOut (land e s)).trace = (runOut s).trace ∧ (runOut (land e s)).rspWord = (runOut s).rspWord ∧
    (runOut (land e s)).counter = (land e s).counter

/-! ### Ends of commands -/

/-- Every command, in every state, ends with a response waiting and the sequencer Idle (R90, R266). -/
def Obligations.EveryCommandEndsWithAResponse : Prop :=
  ∀ (i : Instr) (s : State), ∃ t, exec i s = .next t ∧ t.rspValid = true ∧ t.seq = .idle

/-- Which command ends with which kind, and exactly when (R261, R265). -/
def Obligations.EndStatusIsTheTable : Prop :=
  ∀ (i : Instr) (s : State), ∃ t, exec i s = .next t ∧ t.rspStatus = endStatus i s

/-- A failed command answers data 0 with the line released (R93, R266) and leaves behind (R201) `ow_state`
and `resolution` as before, the buffers as before unless the CRC check failed, and then the bytes as
received. -/
def Obligations.FailedCommandLeavesBehind : Prop :=
  ∀ (i : Instr) (s t : State), exec i s = .next t → t.rspStatus ≠ .ok →
    t.rspData = 0 ∧ t.rspValid = true ∧ t.seq = .idle ∧ t.dqOe = false ∧
    t.owState = s.owState ∧ t.resolution = s.resolution ∧
    (t.rspStatus ≠ .crcMismatch → t.scratchpad = s.scratchpad ∧ t.romBuf = s.romBuf) ∧
    (t.rspStatus = .crcMismatch →
      (i = .readAddress ∧ t.romBuf = s.nextRom ∧ t.scratchpad = s.scratchpad) ∨
      (∃ rid, i = .readTemperature rid ∧ t.scratchpad = s.nextScratchpad ∧ t.romBuf = s.romBuf))

/-- Every result but a ROM id has a zero upper half, also a negative one (R95). -/
def Obligations.UpperHalfOfResultIsZero : Prop :=
  ∀ (i : Instr) (s t : State), i ≠ .readAddress → exec i s = .next t → t.rspData.extractLsb' 32 32 = 0

/-- A command that does not reach the wire takes one step from accept to response, also of the
machine with outside events still to come: Idle before it and Idle after it (R31). -/
def Obligations.CommandWithoutWireTakesOneStep : Prop :=
  (∀ (i : Instr) (s : State), reachesWire i s = false →
    exec i s = .next (beginInstr i s) ∧ (beginInstr i s).seq = .idle) ∧
  (∀ (s : State) (w : CmdWord) (rest : List CmdWord), s.rstN = true → popDue s = none → s.seq = .idle →
    s.rspValid = false → s.cmds = w :: rest → reachesWire (decode w) s = false →
    ∃ t, step s = .next t ∧ t.seq = .idle ∧ t.rspValid = true)

/-- The transitions of `ow_state` (R200): by the table on OK, none otherwise; from Created the four
commands that check it are rejected. -/
def Obligations.OwStateTransitions : Prop :=
  ∀ (i : Instr) (s : State), ∃ t, exec i s = .next t ∧
    (t.owState = if t.rspStatus = .ok then owStateAfterOk i s.owState else s.owState) ∧
    (checksOwState i = true → s.owState = .created → t.rspStatus ≠ .ok)

/-- The cores are independent (R74, R276): a one-wire command leaves the quadrature core, a quadrature
command leaves the one-wire core and the wire, a reserved opcode leaves both. -/
def Obligations.CoresDoNotTouchEachOther : Prop :=
  ∀ (i : Instr) (s t : State), exec i s = .next t →
    (isQuadrature i = false →
      t.oldAb = s.oldAb ∧ t.counter = s.counter ∧ t.precision = s.precision ∧ t.qState = s.qState ∧
      t.abPrev = s.abPrev ∧ t.encPuEn = s.encPuEn) ∧
    (isQuadrature i = true ∨ isReserved i = true →
      t.owState = s.owState ∧ t.scratchpad = s.scratchpad ∧ t.romBuf = s.romBuf ∧
      t.resolution = s.resolution ∧ t.presence = s.presence ∧ t.dqSampled = s.dqSampled ∧
      t.shiftReg = s.shiftReg ∧ t.samples = s.samples ∧ t.trace = s.trace ∧ t.waited = s.waited)

/-- Who writes what: only `ReadTemperature` the scratchpad (R27), only `ReadAddress` `rom_buf` (R28), only
a `SetResolution` in range ending OK `resolution` (R29), only `SetPosition` ending OK `counter` among the
commands (R22), only `Q.Configure` `precision`, `q_state` and the pull-up (R23, R24, R36), no command
`old_ab` (R21). -/
def Obligations.OnlyTheNamedCommandsWrite : Prop :=
  ∀ (i : Instr) (s t : State), exec i s = .next t →
    ((∀ rid, i ≠ .readTemperature rid) → t.scratchpad = s.scratchpad) ∧
    (i ≠ .readAddress → t.romBuf = s.romBuf) ∧
    ((∀ rid bits, i = .setResolution rid bits → bitsInRange bits = false ∨ t.rspStatus ≠ .ok) →
      t.resolution = s.resolution) ∧
    ((∀ v, i = .setPosition v → t.rspStatus ≠ .ok) → t.counter = s.counter) ∧
    ((∀ p, i ≠ .qConfigure p) →
      t.precision = s.precision ∧ t.qState = s.qState ∧ t.encPuEn = s.encPuEn ∧ t.abPrev = s.abPrev) ∧
    t.oldAb = s.oldAb

/-- The pull-up enable (R36): 0 at reset, set by every `Q.Configure`, never cleared except by reset. -/
def Obligations.PullUpClearedOnlyByReset : Prop :=
  State.reset.encPuEn = false ∧
  (∀ (s : State) (p : Word), ∃ t, exec (.qConfigure p) s = .next t ∧ t.encPuEn = true) ∧
  (∀ s t : State, step s = .next t → s.encPuEn = true → t.encPuEn = false →
    ∃ (level : Bool) (es : List (Nat × Event)), s.events = (0, .rst level) :: es)

/-! ### One-wire commands (42_ds18b20.md) -/

/-- `OW.Configure()` (R190): the line released, `ow_state` Ready, OK, nothing else. -/
def Obligations.OwConfigureResult : Prop :=
  (∀ w : CmdWord, w.op = 0x1 → decode w = .owConfigure) ∧
  (∀ s : State, exec .owConfigure s = .next { s with
    dqOe := false, owState := .ready, rspValid := true, rspStatus := .ok, rspData := 0, seq := .idle })

/-- The state check (R199): before any `OW.Configure` the four commands end with `InvalidConfig`, also a
`SetResolution` out of range; no wire event, nothing but the response and the latched operands changes. In Ready
and Converting all four are allowed. -/
def Obligations.OneWireCommandBeforeConfigure : Prop :=
  (∀ (i : Instr) (s : State), checksOwState i = true → s.owState = .created →
    ∃ t, exec i s = .next t ∧ t.rspStatus = .invalidConfig ∧
      t = { s with
        dqOe := false, rspValid := true, rspStatus := .invalidConfig, rspData := 0, seq := .idle
        cmdRp := t.cmdRp, cmdArg := t.cmdArg, cmdRom := t.cmdRom }) ∧
  (∀ (i : Instr) (s : State), checksOwState i = true → s.owState ≠ .created →
    ∃ t, exec i s = .next t ∧ t.rspStatus ≠ .invalidConfig)

/-- The presence check (R198): with no presence pulse a command that reaches the wire ends with
`NotConnected`; its wire trace is exactly `Reset(0)` and no byte has been sent. -/
def Obligations.MissingPresenceIsNotConnected : Prop :=
  ∀ (i : Instr) (s : State), reachesWire i s = true → s.nextPresence = false →
    ∃ t, exec i s = .next t ∧ t.rspStatus = .notConnected ∧
      t = { s with
        trace := s.trace ++ [.reset false], presence := false, samples := s.samples + 1
        dqOe := false, rspValid := true, rspStatus := .notConnected, rspData := 0, seq := .idle
        cmdRp := t.cmdRp, cmdArg := t.cmdArg, cmdRom := t.cmdRom
        dqSampled := t.dqSampled, waited := t.waited }

/-- `ReadAddress()` with a device present (R192): the eight bytes as received in `rom_buf`, the wire trace,
the id as the result or `CRCMismatch`; `ow_state` and everything else unchanged. -/
def Obligations.ReadAddressResult : Prop :=
  ∀ s : State, s.owState ≠ .created → s.nextPresence = true →
    ∃ t, exec .readAddress s = .next t ∧
      t = { s with
        romBuf := s.nextRom
        trace := s.trace ++ [.reset true, .sent 0x33] ++ receivedAll s.nextRom.toList
        rspStatus := if crc8 (s.nextRom.toList.take 7) = s.nextRom[7] then .ok else .crcMismatch
        rspData := if crc8 (s.nextRom.toList.take 7) = s.nextRom[7] then bitsOfRom s.nextRom else 0
        presence := true, samples := s.samples + 65, dqOe := false, rspValid := true, seq := .idle
        dqSampled := t.dqSampled, shiftReg := t.shiftReg, waited := t.waited }

/-- `SetResolution` out of range, once configured (R193): OK, no wire event, `resolution` unchanged. -/
def Obligations.SetResolutionOutOfRange : Prop :=
  ∀ (s : State) (rid : Option RomId) (bits : Word), s.owState ≠ .created →
    (bits.toInt < 9 ∨ 12 < bits.toInt) →
    exec (.setResolution rid bits) s = .next { s with
      rspValid := true, rspStatus := .ok, rspData := 0, seq := .idle
      cmdArg := bits, cmdRp := rid.isSome, cmdRom := rid.getD s.cmdRom }

/-- `SetResolution` in range with a device present (R193, R105): select, Write Scratchpad, TH, TL, the
configuration byte; `resolution` takes the low four bits; OK. -/
def Obligations.SetResolutionResult : Prop :=
  ∀ (s : State) (rid : Option RomId) (bits : Word), s.owState ≠ .created → s.nextPresence = true →
    9 ≤ bits.toInt → bits.toInt ≤ 12 →
    ∃ t, exec (.setResolution rid bits) s = .next t ∧
      t = { s with
        resolution := bits.setWidth 4
        trace := s.trace ++ [.reset true] ++ sentAll (selectedBytes rid) ++
          sentAll [0x4E, 0xFF, 0x00, BitVec.ofNat 8 ((bits.toNat - 9) * 32 + 31)]
        rspStatus := .ok, rspData := 0, presence := true, samples := s.samples + 1, dqOe := false
        rspValid := true, seq := .idle, cmdArg := bits, cmdRp := rid.isSome
        cmdRom := rid.getD s.cmdRom, dqSampled := t.dqSampled, waited := t.waited }

/-- `RequestTemperature` with a device present (R194): select, Convert T, `ow_state` Converting, OK. -/
def Obligations.RequestTemperatureResult : Prop :=
  ∀ (s : State) (rid : Option RomId), s.owState ≠ .created → s.nextPresence = true →
    ∃ t, exec (.requestTemperature rid) s = .next t ∧
      t = { s with
        owState := .converting
        trace := s.trace ++ [.reset true] ++ sentAll (selectedBytes rid) ++ [.sent 0x44]
        rspStatus := .ok, rspData := 0, presence := true, samples := s.samples + 1, dqOe := false
        rspValid := true, seq := .idle, cmdRp := rid.isSome, cmdRom := rid.getD s.cmdRom
        dqSampled := t.dqSampled, waited := t.waited }

/-- `ReadTemperature` with a device present (R196): select, Read Scratchpad, nine bytes as received; on a
good CRC the decoded temperature and `ow_state` Ready, otherwise `CRCMismatch` and `ow_state` kept. -/
def Obligations.ReadTemperatureResult : Prop :=
  ∀ (s : State) (rid : Option RomId), s.owState ≠ .created → s.nextPresence = true →
    ∃ t, exec (.readTemperature rid) s = .next t ∧
      t = { s with
        scratchpad := s.nextScratchpad
        trace := s.trace ++ [.reset true] ++ sentAll (selectedBytes rid) ++ [.sent 0xBE] ++
          receivedAll s.nextScratchpad.toList
        owState :=
          if crc8 (s.nextScratchpad.toList.take 8) = s.nextScratchpad[8] then .ready else s.owState
        rspStatus :=
          if crc8 (s.nextScratchpad.toList.take 8) = s.nextScratchpad[8] then .ok else .crcMismatch
        rspData :=
          if crc8 (s.nextScratchpad.toList.take 8) = s.nextScratchpad[8] then
            (decodeTemp s.nextScratchpad[0] s.nextScratchpad[1]).setWidth 64 else 0
        presence := true, samples := s.samples + 73, dqOe := false, rspValid := true, seq := .idle
        cmdRp := rid.isSome, cmdRom := rid.getD s.cmdRom
        dqSampled := t.dqSampled, shiftReg := t.shiftReg, waited := t.waited }

/-- Every presence bit and all bytes are possible answers (R141): for each there is a state whose next reset
and reads are answered so, with nothing drawn from the free value (the list of answers is the model's choice,
log entry 3). -/
def Obligations.EveryAnswerIsPossible : Prop :=
  ∀ (s : State) (p : Bool) (v : Vector Byte 9), ∃ answers : List Bool,
    { s with answers := answers, samples := 0 }.nextPresence = p ∧
    { s with answers := answers, samples := 0 }.nextScratchpad = v ∧ answers.length = 73

/-- A line stuck low passes every check (R316): `ReadAddress` and `ReadTemperature` answer `(OK, 0)`. -/
def Obligations.LineStuckLowAnswersOkZero : Prop :=
  ∀ s : State, s.owState ≠ .created → (∀ j < 73, levelAt s.answers (s.samples + j) = false) →
    (∃ t, exec .readAddress s = .next t ∧ t.presence = true ∧ t.romBuf = #v[0, 0, 0, 0, 0, 0, 0, 0] ∧
      t.rspStatus = .ok ∧ t.rspData = 0) ∧
    (∀ rid, ∃ t, exec (.readTemperature rid) s = .next t ∧ t.presence = true ∧
      t.scratchpad = #v[0, 0, 0, 0, 0, 0, 0, 0, 0] ∧ t.rspStatus = .ok ∧ t.rspData = 0)

/-- A presence pulse and then a released line (R137, R192, R196): bytes 0xFF, which never validate. -/
def Obligations.SilentDeviceIsCrcMismatch : Prop :=
  ∀ s : State, s.owState ≠ .created → s.nextPresence = true →
    (∀ j < 72, levelAt s.answers (s.samples + 1 + j) = true) →
    (∃ t, exec .readAddress s = .next t ∧ t.rspStatus = .crcMismatch) ∧
    (∀ rid, ∃ t, exec (.readTemperature rid) s = .next t ∧ t.rspStatus = .crcMismatch)

/-- The order of the write slots of a byte (R135, R136, 20_memory R63): slot `i` is low for the time of
bit `i`, released for the rest, the line pulled low at its start. -/
def Obligations.BytesGoLeastSignificantBitFirst : Prop :=
  ∀ (b : Byte) (i : Nat), i < 8 →
    (writeByteCode b)[4 * i]? = some (.pad .driveLow) ∧
    (writeByteCode b)[4 * i + 1]? = some (.pad (.delay (if b.getLsbD i then .w1l else .w0l))) ∧
    (writeByteCode b)[4 * i + 2]? = some (.pad .release) ∧
    (writeByteCode b)[4 * i + 3]? = some (.pad (.delay (if b.getLsbD i then .w1r else .w0r)))

/-- The least durations of the commands with the default slot durations (R325): 960 µs for the reset and
560 µs for each byte. -/
def Obligations.CommandDurations : Prop :=
  ∀ (i : Instr) (s : State), s.cfg.times = SlotTimes.default → reachesWire i s = true →
    s.nextPresence = true →
    ∃ t, exec i s = .next t ∧ t.waited = s.waited + 960 + 560 * wireBytes i

/-! ### The quadrature core (41_quadrature.md) -/

/-- `Q.Configure` (R164) for every parameter and every operand. -/
def Obligations.QConfigureResult : Prop :=
  (∀ w : CmdWord, w.op = 0x8 → decode w = .qConfigure w.arg) ∧
  ∀ (s : State) (p : Word),
    (s.cfg.edgeIrqSupported = true →
      exec (.qConfigure p) s = .next { s with
        encPuEn := true, precision := if 0 < p.toInt then p else 4
        abPrev := BitVec.ofBool s.encA ++ BitVec.ofBool s.encB, qState := .ready
        rspValid := true, rspStatus := .ok, rspData := 0, seq := .idle }) ∧
    (s.cfg.edgeIrqSupported = false →
      exec (.qConfigure p) s = .next { s with
        encPuEn := true, qState := .failed, dqOe := false
        rspValid := true, rspStatus := .unsupported, rspData := 0, seq := .idle })

/-- `Position()` (R165): in Ready the quotient toward zero in the low half; in Created `InvalidConfig`, in
Failed `Unsupported`; nothing but the response changes. -/
def Obligations.PositionResult : Prop :=
  (∀ w : CmdWord, w.op = 0x9 → decode w = .position) ∧
  ∀ s : State,
    (s.qState = .ready →
      exec .position s = .next { s with
        rspValid := true, rspStatus := .ok, seq := .idle
        rspData := (BitVec.ofInt 32 (Int.tdiv s.counter.toInt s.precision.toInt)).setWidth 64 }) ∧
    (s.qState = .created →
      exec .position s = .next { s with
        dqOe := false, rspValid := true, rspStatus := .invalidConfig, rspData := 0, seq := .idle }) ∧
    (s.qState = .failed →
      exec .position s = .next { s with
        dqOe := false, rspValid := true, rspStatus := .unsupported, rspData := 0, seq := .idle })

/-- `SetPosition(v)` (R166): in Ready `counter` is the product modulo 2^32; in Created `InvalidConfig`, in
Failed `Unsupported`; nothing else but the response changes. -/
def Obligations.SetPositionResult : Prop :=
  (∀ w : CmdWord, w.op = 0xA → decode w = .setPosition w.arg) ∧
  ∀ (s : State) (v : Word),
    (s.qState = .ready →
      exec (.setPosition v) s = .next { s with
        counter := BitVec.ofInt 32 (v.toInt * s.precision.toInt)
        rspValid := true, rspStatus := .ok, rspData := 0, seq := .idle }) ∧
    (s.qState = .created →
      exec (.setPosition v) s = .next { s with
        dqOe := false, rspValid := true, rspStatus := .invalidConfig, rspData := 0, seq := .idle }) ∧
    (s.qState = .failed →
      exec (.setPosition v) s = .next { s with
        dqOe := false, rspValid := true, rspStatus := .unsupported, rspData := 0, seq := .idle })

/-- A failed `Q.Configure` is sticky (R167, R267): Failed is left by a `Q.Configure` with edge detection
supported, which makes the core Ready, and by no other command; `Position` and `SetPosition` answer
`Unsupported` in it and leave the counter. -/
def Obligations.FailedConfigureIsSticky : Prop :=
  ∀ (i : Instr) (s : State), s.qState = .failed →
    ∃ t, exec i s = .next t ∧
      (∀ p, i = .qConfigure p → s.cfg.edgeIrqSupported = true → t.qState = .ready) ∧
      ((∀ p, i = .qConfigure p → s.cfg.edgeIrqSupported = false) → t.qState = .failed) ∧
      ((i = .position ∨ ∃ v, i = .setPosition v) → t.rspStatus = .unsupported ∧ t.counter = s.counter)

/-- An edge event in Ready (R160): the index from the newest sample and the new one, the history takes it,
the counter its table entry. That the pin levels and `ab_prev` follow the event is the model's choice (log
entry 9), not R160's; nothing else changes. -/
def Obligations.EdgeEventResult : Prop :=
  ∀ (s : State) (a b : Bool), s.qState = .ready →
    land (.qEdge a b) s = { s with
      oldAb := (s.oldAb <<< 2) ||| (BitVec.ofBool a ++ BitVec.ofBool b).setWidth 4
      counter := BitVec.ofInt 32 (s.counter.toInt +
        lut ((s.oldAb <<< 2) ||| (BitVec.ofBool a ++ BitVec.ofBool b).setWidth 4))
      encA := a, encB := b, abPrev := BitVec.ofBool a ++ BitVec.ofBool b }

/-- One edge event changes `counter` by −1, 0 or +1 modulo 2^32, in every state for every sample (R161). -/
def Obligations.EdgeEventBound : Prop :=
  ∀ (s : State) (a b : Bool), ∃ d : Int, (d = -1 ∨ d = 0 ∨ d = 1) ∧
    (edgeEvent a b s).counter = s.counter + BitVec.ofInt 32 d

/-- Outside Ready, changes of the pins produce no event (R163). -/
def Obligations.NoEdgeEventOutsideReady : Prop :=
  ∀ (s : State) (e : Event), isEncoderEvent e = true → s.qState ≠ .ready →
    ∃ a b : Bool, land e s = { s with encA := a, encB := b }

/-- In Ready with the detector armed, a change of the pins is one edge event, and the same levels again are
none (R162). -/
def Obligations.PinChangeIsOneEdgeEvent : Prop :=
  ∀ (s : State) (a b : Bool), s.qState = .ready → s.abPrev = s.abNow →
    land (.pins a b) s =
      if a = s.encA ∧ b = s.encB then s
      else { edgeEvent a b s with
        encA := a, encB := b, abPrev := BitVec.ofBool a ++ BitVec.ofBool b }

/-- The cycle law (R169): over legal samples that come back to the first one, the counter has changed by
`−4k`, `k` the net turns of the cycle 11, 10, 00, 01. -/
def Obligations.CycleLaw : Prop :=
  ∀ (s : State) (samples : List (Bool × Bool)),
    legalSamples s.currentSample samples = true → lastSample s.currentSample samples = s.currentSample →
    ∃ k : Int, netSteps s.currentSample samples = 4 * k ∧
      (edgeEvents samples s).counter = s.counter + BitVec.ofInt 32 (-4 * k)

/-- The bounce law (R170): a sample that moves one bit and one that moves it back change the counter by 0
together; a diagonal sample changes it by 0. -/
def Obligations.BounceLaw : Prop :=
  ∀ (s : State) (a b a' b' : Bool), s.currentSample = BitVec.ofBool a ++ BitVec.ofBool b →
    ((a = a' ↔ b ≠ b') →
      (edgeEvent a b (edgeEvent a' b' s)).counter = s.counter ∧ (edgeEvent a' b' s).counter ≠ s.counter) ∧
    (a ≠ a' → b ≠ b' → (edgeEvent a' b' s).counter = s.counter)

/-- Position round trip (R168): without overflow, `SetPosition(v)` and then `Position()` answers `v`. -/
def Obligations.PositionRoundTrip : Prop :=
  ∀ (s : State) (v : Word), s.qState = .ready → 1 ≤ s.precision.toInt →
    -2 ^ 31 ≤ v.toInt * s.precision.toInt → v.toInt * s.precision.toInt ≤ 2 ^ 31 - 1 →
    ∃ t u, exec (.setPosition v) s = .next t ∧ exec .position t = .next u ∧ u.rspStatus = .ok ∧
      u.rspData = v.setWidth 64

/-- `SetPosition` is a plain store (R69): an edge event before it is overwritten, one after it is applied to
the new value. -/
def Obligations.SetPositionOverwritesEarlierEdges : Prop :=
  ∀ (s : State) (v : Word) (a b : Bool), s.qState = .ready →
    ∃ t u, exec (.setPosition v) (land (.qEdge a b) s) = .next t ∧ t.counter = v * s.precision ∧
      exec (.setPosition v) s = .next u ∧
      (land (.qEdge a b) u).counter = v * s.precision + BitVec.ofInt 32 (lut (edgeIndex s a b))

/-- The reserved opcodes (R97): the eight values of `op`, and a command with one: `Unsupported`, data 0, in
one step, accepted like any other, nothing but the response changes. -/
def Obligations.ReservedOpcodeResult : Prop :=
  (∀ w : CmdWord, isReserved (decode w) = true ↔
    w.op ∈ [0x0#4, 0x6#4, 0x7#4, 0xB#4, 0xC#4, 0xD#4, 0xE#4, 0xF#4]) ∧
  (∀ (s : State) (i : Instr), isReserved i = true → s.seq = .idle → s.dqOe = false →
    exec i s = .next { s with rspValid := true, rspStatus := .unsupported, rspData := 0 }) ∧
  (∀ (s : State) (w : CmdWord) (rest : List CmdWord), s.rstN = true → popDue s = none → s.seq = .idle →
    s.dqOe = false → s.rspValid = false → s.cmds = w :: rest → isReserved (decode w) = true →
    step s = .next { accept w rest (tick s) with
      rspValid := true, rspStatus := .unsupported, rspData := 0 })

/-! ### The pure functions (43_crc8_and_decode.md, 30_encoding.md) -/

/-- The CRC law (R233), and that validating a buffer is its whole CRC being 0. -/
def Obligations.CrcLaw : Prop :=
  (∀ bs : List Byte, crc8 (bs ++ [crc8 bs]) = 0) ∧
  (∀ v : Vector Byte 9, scratchpadValid v = true ↔ crc8 v.toList = 0) ∧
  (∀ r : RomId, romValid r = true ↔ crc8 r.toList = 0)

/-- Single-bit detection (R234). -/
def Obligations.CrcDetectsEverySingleBitFlip : Prop :=
  ∀ (bs : List Byte) (pos bit : Nat), pos < bs.length → bit < 8 → crc8 (flipBit bs pos bit) ≠ crc8 bs

/-- The byte-at-a-time form (R231), with `T[x] = crc8([x])`, and the first sixteen values of `T`. -/
def Obligations.CrcByteAtATime : Prop :=
  (∀ bs : List Byte, crc8 bs = bs.foldl (fun c d => crc8 [c ^^^ d]) 0) ∧
  (List.range 16).map (fun x => crc8 [BitVec.ofNat 8 x]) =
    [0x00, 0x5E, 0xBC, 0xE2, 0x61, 0x3F, 0xDD, 0x83, 0xC2, 0x9C, 0x7E, 0x20, 0xA3, 0xFD, 0x1F, 0x41]

/-- The reference values (R235). -/
def Obligations.CrcReferenceValues : Prop :=
  crc8 [0x50, 0x05, 0x4B, 0x46, 0x7F, 0xFF, 0x0C, 0x10] = 0x1C ∧
  crc8 [0x28, 0xFF, 0x64, 0x1E, 0x3A, 0x82, 0x01] = 0x3F

/-- The decoder's properties (R237 a to f). -/
def Obligations.DecodeTempProperties : Prop :=
  (∀ lsb msb : Byte, (decodeTemp lsb msb).toInt = Int.tdiv (625 * (msb ++ lsb).toInt) 10) ∧
  (∀ lsb msb : Byte, -2048000 ≤ (decodeTemp lsb msb).toInt ∧ (decodeTemp lsb msb).toInt ≤ 2047937) ∧
  ((decodeTemp 0x00 0x80).toInt = -2048000 ∧ (decodeTemp 0xFF 0x7F).toInt = 2047937) ∧
  (∀ lsb msb lsb' msb' : Byte, (msb' ++ lsb').toInt = (msb ++ lsb).toInt + 1 →
    (decodeTemp lsb' msb').toInt - (decodeTemp lsb msb).toInt = 62 ∨
    (decodeTemp lsb' msb').toInt - (decodeTemp lsb msb).toInt = 63) ∧
  (∀ lsb msb lsb' msb' : Byte, (msb' ++ lsb').toInt = -(msb ++ lsb).toInt →
    (decodeTemp lsb' msb').toInt = -(decodeTemp lsb msb).toInt) ∧
  (∀ lsb msb lsb' msb' : Byte, (msb ++ lsb).toNat < (msb' ++ lsb').toNat →
    ((msb' ++ lsb').toNat < 0x8000 ∨ 0x8000 ≤ (msb ++ lsb).toNat →
      (decodeTemp lsb msb).toInt < (decodeTemp lsb' msb').toInt) ∧
    ((msb ++ lsb).toNat < 0x8000 → 0x8000 ≤ (msb' ++ lsb').toNat →
      (decodeTemp lsb' msb').toInt < (decodeTemp lsb msb).toInt)) ∧
  (∀ lsb msb : Byte,
    ((msb ++ lsb).toInt % 2 = 0 → 10 * (decodeTemp lsb msb).toInt = 625 * (msb ++ lsb).toInt) ∧
    ((msb ++ lsb).toInt % 2 = 1 → 0 < (msb ++ lsb).toInt →
      10 * (decodeTemp lsb msb).toInt = 625 * (msb ++ lsb).toInt - 5) ∧
    ((msb ++ lsb).toInt % 2 = 1 → (msb ++ lsb).toInt < 0 →
      10 * (decodeTemp lsb msb).toInt = 625 * (msb ++ lsb).toInt + 5))

/-- The configuration byte (R105): its four values, its fields, and its place as the third data byte of Write
Scratchpad in `SetResolution`. -/
def Obligations.ConfigurationBytes : Prop :=
  configByte 9 = 0x1F ∧ configByte 10 = 0x3F ∧ configByte 11 = 0x5F ∧ configByte 12 = 0x7F ∧
  (∀ r : Word, 9 ≤ r.toInt → r.toInt ≤ 12 →
    (configByte r).toNat = (r.toNat - 9) * 32 + 31 ∧ (configByte r).extractLsb' 0 5 = 0b11111#5 ∧
    ((configByte r).extractLsb' 5 2).toNat = r.toNat - 9 ∧ (configByte r).getLsbD 7 = false) ∧
  (∀ (rp : Bool) (rom : RomId) (r : Word),
    commandCode .setResolution rp rom r =
      beginCode ++ selectCode rp rom ++
        (writeByteCode 0x4E ++ writeByteCode 0xFF ++ writeByteCode 0x00 ++ writeByteCode (configByte r)) ++
        [.keepResolution, .completeZero])

/-- The lookup table (R108). -/
def Obligations.LookupTable : Prop :=
  (List.range 16).map (fun i => lut (BitVec.ofNat 4 i)) =
    [0, -1, 1, 0, 1, 0, 0, -1, -1, 0, 0, 1, 0, 1, -1, 0]

/-! ### The parameters (00_scope.md) -/

/-- The OPEN parameters (R5, 92_eei_decisions): under another configuration a command ends in the same state
but for the configuration and the time spent, and that too is the same if the slot durations are. Only
`Q.Configure` reads one more parameter, `EDGE_IRQ_SUPPORTED`. -/
def Obligations.OpenParametersDoNotMatter : Prop :=
  ∀ (i : Instr) (s : State) (c : Config),
    (∀ p, i = .qConfigure p → c.edgeIrqSupported = s.cfg.edgeIrqSupported) →
    ∃ (t : State) (w : Nat), exec i s = .next t ∧
      exec i { s with cfg := c } = .next { t with cfg := c, waited := w } ∧
      (c.times = s.cfg.times → w = t.waited)
end

