-- ==== Sys2Proof/Laws/Encoding.lean ====
section
/-! SUPPORT. The fields of a packed command word, and the packing of eight bytes. -/

namespace Sys2Proof

theorem fields_getLsbD (op : BitVec 4) (rp : Bool) (arg : BitVec 32) (rom : BitVec 64) (i : Nat) :
    (rom ++ arg ++ 0#3 ++ BitVec.ofBool rp ++ op).getLsbD i =
      if i < 4 then op.getLsbD i else if i < 5 then rp else if i < 8 then false
      else if i < 40 then arg.getLsbD (i - 8) else rom.getLsbD (i - 40) := by
  simp only [BitVec.getLsbD_append, BitVec.getLsbD_ofBool]
  simp only [Nat.sub_sub, Nat.reduceAdd]
  by_cases h4 : i < 4
  · simp [h4]
  by_cases h5 : i < 5
  · have : i = 4 := by omega
    simp [this]
  by_cases h8 : i < 8
  · have : i - 5 < 3 := by omega
    simp [h4, h5, h8, this, show ¬ (i - 4 < 1) by omega]
  by_cases h40 : i < 40
  · simp [h4, h5, h8, h40, show ¬ (i - 4 < 1) by omega, show ¬ (i - 5 < 3) by omega, show i - 8 < 32 by omega]
  · simp [h4, h5, h8, h40, show ¬ (i - 4 < 1) by omega, show ¬ (i - 5 < 3) by omega,
      show ¬ (i - 8 < 32) by omega]

section
variable (op : BitVec 4) (rp : Bool) (arg : Word) (rom : BitVec 64)

theorem packWord_getLsbD (i : Nat) :
    (packWord op rp arg rom).getLsbD i =
      if i < 4 then op.getLsbD i else if i < 5 then rp else if i < 8 then false
      else if i < 40 then arg.getLsbD (i - 8) else rom.getLsbD (i - 40) :=
  fields_getLsbD op rp arg rom i

@[simp] theorem packWord_op : CmdWord.op (packWord op rp arg rom) = op := by
  apply BitVec.eq_of_getLsbD_eq
  intro i hi
  simp only [CmdWord.op, BitVec.getLsbD_extractLsb', packWord_getLsbD]
  simp [hi]

@[simp] theorem packWord_rp : CmdWord.rp (packWord op rp arg rom) = rp := by
  rw [CmdWord.rp, packWord_getLsbD]; simp

@[simp] theorem packWord_arg : CmdWord.arg (packWord op rp arg rom) = arg := by
  apply BitVec.eq_of_getLsbD_eq
  intro i hi
  simp only [CmdWord.arg, BitVec.getLsbD_extractLsb', packWord_getLsbD]
  simp [hi, show ¬ (8 + i < 4) by omega, show ¬ (8 + i < 5) by omega, show 8 + i < 40 by omega]

theorem packWord_romField : (packWord op rp arg rom).extractLsb' 40 64 = rom := by
  apply BitVec.eq_of_getLsbD_eq
  intro i hi
  simp only [BitVec.getLsbD_extractLsb', packWord_getLsbD]
  simp [hi, show ¬ (40 + i < 4) by omega, show ¬ (40 + i < 5) by omega, show ¬ (40 + i < 8) by omega]

end

theorem bytes_getLsbD (b7 b6 b5 b4 b3 b2 b1 b0 : BitVec 8) (n : Nat) :
    (b7 ++ b6 ++ b5 ++ b4 ++ b3 ++ b2 ++ b1 ++ b0).getLsbD n =
      if n < 8 then b0.getLsbD n else if n < 16 then b1.getLsbD (n - 8)
      else if n < 24 then b2.getLsbD (n - 16) else if n < 32 then b3.getLsbD (n - 24)
      else if n < 40 then b4.getLsbD (n - 32) else if n < 48 then b5.getLsbD (n - 40)
      else if n < 56 then b6.getLsbD (n - 48) else b7.getLsbD (n - 56) := by
  simp only [BitVec.getLsbD_append]
  simp only [Nat.sub_sub, Nat.reduceAdd]
  repeat' split
  all_goals first | rfl | omega

theorem bitsOfRom_getLsbD (r : RomId) (i : Nat) (j : Fin 8) (h : i < 8) :
    (bitsOfRom r).getLsbD (8 * j + i) = r[j].getLsbD i := by
  refine Eq.trans (bytes_getLsbD _ _ _ _ _ _ _ _ (8 * j + i)) ?_
  fin_cases j <;> simp [h] <;> (repeat' split) <;> first | omega | rfl

/-- Splitting the packed bytes gives the bytes back (20_memory R64). -/
theorem romOfBits_bitsOfRom (r : RomId) : romOfBits (bitsOfRom r) = r := by
  have h : ∀ j : Fin 8, (bitsOfRom r).extractLsb' (8 * j) 8 = r[j] := by
    intro j
    apply BitVec.eq_of_getLsbD_eq
    intro i hi
    rw [BitVec.getLsbD_extractLsb', bitsOfRom_getLsbD r i j hi]
    simp [hi]
  have e0 := h 0
  have e1 := h 1
  have e2 := h 2
  have e3 := h 3
  have e4 := h 4
  have e5 := h 5
  have e6 := h 6
  have e7 := h 7
  apply Vector.ext
  intro k hk
  have hk' : k = 0 ∨ k = 1 ∨ k = 2 ∨ k = 3 ∨ k = 4 ∨ k = 5 ∨ k = 6 ∨ k = 7 := by omega
  rcases hk' with e | e | e | e | e | e | e | e <;> subst e
  exacts [e0, e1, e2, e3, e4, e5, e6, e7]

end Sys2Proof
end

