-- ==== Sys2Proof/Laws/State.lean ====
section
/-! SUPPORT. One lemma per field per update: every field of the state after each named operation. -/

namespace Sys2Proof.Machine

section
variable (k : Status) (s : State)

@[simp] theorem raise_oldAb : (raise k s).oldAb = s.oldAb := rfl
@[simp] theorem raise_counter : (raise k s).counter = s.counter := rfl
@[simp] theorem raise_precision : (raise k s).precision = s.precision := rfl
@[simp] theorem raise_qState : (raise k s).qState = s.qState := rfl
@[simp] theorem raise_abPrev : (raise k s).abPrev = s.abPrev := rfl
@[simp] theorem raise_encPuEn : (raise k s).encPuEn = s.encPuEn := rfl
@[simp] theorem raise_owState : (raise k s).owState = s.owState := rfl
@[simp] theorem raise_scratchpad : (raise k s).scratchpad = s.scratchpad := rfl
@[simp] theorem raise_romBuf : (raise k s).romBuf = s.romBuf := rfl
@[simp] theorem raise_resolution : (raise k s).resolution = s.resolution := rfl
@[simp] theorem raise_seq : (raise k s).seq = .idle := rfl
@[simp] theorem raise_cmdOp : (raise k s).cmdOp = s.cmdOp := rfl
@[simp] theorem raise_cmdRp : (raise k s).cmdRp = s.cmdRp := rfl
@[simp] theorem raise_cmdArg : (raise k s).cmdArg = s.cmdArg := rfl
@[simp] theorem raise_cmdRom : (raise k s).cmdRom = s.cmdRom := rfl
@[simp] theorem raise_rspValid : (raise k s).rspValid = true := rfl
@[simp] theorem raise_rspStatus : (raise k s).rspStatus = k := rfl
@[simp] theorem raise_rspData : (raise k s).rspData = 0 := rfl
@[simp] theorem raise_presence : (raise k s).presence = s.presence := rfl
@[simp] theorem raise_dqOe : (raise k s).dqOe = false := rfl
@[simp] theorem raise_dqSampled : (raise k s).dqSampled = s.dqSampled := rfl
@[simp] theorem raise_shiftReg : (raise k s).shiftReg = s.shiftReg := rfl
@[simp] theorem raise_rstN : (raise k s).rstN = s.rstN := rfl
@[simp] theorem raise_encA : (raise k s).encA = s.encA := rfl
@[simp] theorem raise_encB : (raise k s).encB = s.encB := rfl
@[simp] theorem raise_cmds : (raise k s).cmds = s.cmds := rfl
@[simp] theorem raise_rspReady : (raise k s).rspReady = s.rspReady := rfl
@[simp] theorem raise_events : (raise k s).events = s.events := rfl
@[simp] theorem raise_answers : (raise k s).answers = s.answers := rfl
@[simp] theorem raise_samples : (raise k s).samples = s.samples := rfl
@[simp] theorem raise_trace : (raise k s).trace = s.trace := rfl
@[simp] theorem raise_waited : (raise k s).waited = s.waited := rfl
@[simp] theorem raise_cfg : (raise k s).cfg = s.cfg := rfl

end

section
variable (d : BitVec 64) (s : State)

@[simp] theorem complete_oldAb : (complete d s).oldAb = s.oldAb := rfl
@[simp] theorem complete_counter : (complete d s).counter = s.counter := rfl
@[simp] theorem complete_precision : (complete d s).precision = s.precision := rfl
@[simp] theorem complete_qState : (complete d s).qState = s.qState := rfl
@[simp] theorem complete_abPrev : (complete d s).abPrev = s.abPrev := rfl
@[simp] theorem complete_encPuEn : (complete d s).encPuEn = s.encPuEn := rfl
@[simp] theorem complete_owState : (complete d s).owState = s.owState := rfl
@[simp] theorem complete_scratchpad : (complete d s).scratchpad = s.scratchpad := rfl
@[simp] theorem complete_romBuf : (complete d s).romBuf = s.romBuf := rfl
@[simp] theorem complete_resolution : (complete d s).resolution = s.resolution := rfl
@[simp] theorem complete_seq : (complete d s).seq = .idle := rfl
@[simp] theorem complete_cmdOp : (complete d s).cmdOp = s.cmdOp := rfl
@[simp] theorem complete_cmdRp : (complete d s).cmdRp = s.cmdRp := rfl
@[simp] theorem complete_cmdArg : (complete d s).cmdArg = s.cmdArg := rfl
@[simp] theorem complete_cmdRom : (complete d s).cmdRom = s.cmdRom := rfl
@[simp] theorem complete_rspValid : (complete d s).rspValid = true := rfl
@[simp] theorem complete_rspStatus : (complete d s).rspStatus = .ok := rfl
@[simp] theorem complete_rspData : (complete d s).rspData = d := rfl
@[simp] theorem complete_presence : (complete d s).presence = s.presence := rfl
@[simp] theorem complete_dqOe : (complete d s).dqOe = s.dqOe := rfl
@[simp] theorem complete_dqSampled : (complete d s).dqSampled = s.dqSampled := rfl
@[simp] theorem complete_shiftReg : (complete d s).shiftReg = s.shiftReg := rfl
@[simp] theorem complete_rstN : (complete d s).rstN = s.rstN := rfl
@[simp] theorem complete_encA : (complete d s).encA = s.encA := rfl
@[simp] theorem complete_encB : (complete d s).encB = s.encB := rfl
@[simp] theorem complete_cmds : (complete d s).cmds = s.cmds := rfl
@[simp] theorem complete_rspReady : (complete d s).rspReady = s.rspReady := rfl
@[simp] theorem complete_events : (complete d s).events = s.events := rfl
@[simp] theorem complete_answers : (complete d s).answers = s.answers := rfl
@[simp] theorem complete_samples : (complete d s).samples = s.samples := rfl
@[simp] theorem complete_trace : (complete d s).trace = s.trace := rfl
@[simp] theorem complete_waited : (complete d s).waited = s.waited := rfl
@[simp] theorem complete_cfg : (complete d s).cfg = s.cfg := rfl

end

section
variable (s : State)

@[simp] theorem consume_oldAb : (consume s).oldAb = s.oldAb := rfl
@[simp] theorem consume_counter : (consume s).counter = s.counter := rfl
@[simp] theorem consume_precision : (consume s).precision = s.precision := rfl
@[simp] theorem consume_qState : (consume s).qState = s.qState := rfl
@[simp] theorem consume_abPrev : (consume s).abPrev = s.abPrev := rfl
@[simp] theorem consume_encPuEn : (consume s).encPuEn = s.encPuEn := rfl
@[simp] theorem consume_owState : (consume s).owState = s.owState := rfl
@[simp] theorem consume_scratchpad : (consume s).scratchpad = s.scratchpad := rfl
@[simp] theorem consume_romBuf : (consume s).romBuf = s.romBuf := rfl
@[simp] theorem consume_resolution : (consume s).resolution = s.resolution := rfl
@[simp] theorem consume_seq : (consume s).seq = s.seq := rfl
@[simp] theorem consume_cmdOp : (consume s).cmdOp = s.cmdOp := rfl
@[simp] theorem consume_cmdRp : (consume s).cmdRp = s.cmdRp := rfl
@[simp] theorem consume_cmdArg : (consume s).cmdArg = s.cmdArg := rfl
@[simp] theorem consume_cmdRom : (consume s).cmdRom = s.cmdRom := rfl
@[simp] theorem consume_rspValid : (consume s).rspValid = false := rfl
@[simp] theorem consume_rspStatus : (consume s).rspStatus = s.rspStatus := rfl
@[simp] theorem consume_rspData : (consume s).rspData = s.rspData := rfl
@[simp] theorem consume_presence : (consume s).presence = s.presence := rfl
@[simp] theorem consume_dqOe : (consume s).dqOe = s.dqOe := rfl
@[simp] theorem consume_dqSampled : (consume s).dqSampled = s.dqSampled := rfl
@[simp] theorem consume_shiftReg : (consume s).shiftReg = s.shiftReg := rfl
@[simp] theorem consume_rstN : (consume s).rstN = s.rstN := rfl
@[simp] theorem consume_encA : (consume s).encA = s.encA := rfl
@[simp] theorem consume_encB : (consume s).encB = s.encB := rfl
@[simp] theorem consume_cmds : (consume s).cmds = s.cmds := rfl
@[simp] theorem consume_rspReady : (consume s).rspReady = s.rspReady := rfl
@[simp] theorem consume_events : (consume s).events = s.events := rfl
@[simp] theorem consume_answers : (consume s).answers = s.answers := rfl
@[simp] theorem consume_samples : (consume s).samples = s.samples := rfl
@[simp] theorem consume_trace : (consume s).trace = s.trace := rfl
@[simp] theorem consume_waited : (consume s).waited = s.waited := rfl
@[simp] theorem consume_cfg : (consume s).cfg = s.cfg := rfl

end

section
variable (w : CmdWord) (s : State)

@[simp] theorem latchWord_oldAb : (latchWord w s).oldAb = s.oldAb := rfl
@[simp] theorem latchWord_counter : (latchWord w s).counter = s.counter := rfl
@[simp] theorem latchWord_precision : (latchWord w s).precision = s.precision := rfl
@[simp] theorem latchWord_qState : (latchWord w s).qState = s.qState := rfl
@[simp] theorem latchWord_abPrev : (latchWord w s).abPrev = s.abPrev := rfl
@[simp] theorem latchWord_encPuEn : (latchWord w s).encPuEn = s.encPuEn := rfl
@[simp] theorem latchWord_owState : (latchWord w s).owState = s.owState := rfl
@[simp] theorem latchWord_scratchpad : (latchWord w s).scratchpad = s.scratchpad := rfl
@[simp] theorem latchWord_romBuf : (latchWord w s).romBuf = s.romBuf := rfl
@[simp] theorem latchWord_resolution : (latchWord w s).resolution = s.resolution := rfl
@[simp] theorem latchWord_seq : (latchWord w s).seq = s.seq := rfl
@[simp] theorem latchWord_cmdOp : (latchWord w s).cmdOp = w.op := rfl
@[simp] theorem latchWord_cmdRp : (latchWord w s).cmdRp = w.rp := rfl
@[simp] theorem latchWord_cmdArg : (latchWord w s).cmdArg = w.arg := rfl
@[simp] theorem latchWord_cmdRom : (latchWord w s).cmdRom = w.rom := rfl
@[simp] theorem latchWord_rspValid : (latchWord w s).rspValid = s.rspValid := rfl
@[simp] theorem latchWord_rspStatus : (latchWord w s).rspStatus = s.rspStatus := rfl
@[simp] theorem latchWord_rspData : (latchWord w s).rspData = s.rspData := rfl
@[simp] theorem latchWord_presence : (latchWord w s).presence = s.presence := rfl
@[simp] theorem latchWord_dqOe : (latchWord w s).dqOe = s.dqOe := rfl
@[simp] theorem latchWord_dqSampled : (latchWord w s).dqSampled = s.dqSampled := rfl
@[simp] theorem latchWord_shiftReg : (latchWord w s).shiftReg = s.shiftReg := rfl
@[simp] theorem latchWord_rstN : (latchWord w s).rstN = s.rstN := rfl
@[simp] theorem latchWord_encA : (latchWord w s).encA = s.encA := rfl
@[simp] theorem latchWord_encB : (latchWord w s).encB = s.encB := rfl
@[simp] theorem latchWord_cmds : (latchWord w s).cmds = s.cmds := rfl
@[simp] theorem latchWord_rspReady : (latchWord w s).rspReady = s.rspReady := rfl
@[simp] theorem latchWord_events : (latchWord w s).events = s.events := rfl
@[simp] theorem latchWord_answers : (latchWord w s).answers = s.answers := rfl
@[simp] theorem latchWord_samples : (latchWord w s).samples = s.samples := rfl
@[simp] theorem latchWord_trace : (latchWord w s).trace = s.trace := rfl
@[simp] theorem latchWord_waited : (latchWord w s).waited = s.waited := rfl
@[simp] theorem latchWord_cfg : (latchWord w s).cfg = s.cfg := rfl

end

section
variable (v : Word) (s : State)

@[simp] theorem latchArg_oldAb : (latchArg v s).oldAb = s.oldAb := rfl
@[simp] theorem latchArg_counter : (latchArg v s).counter = s.counter := rfl
@[simp] theorem latchArg_precision : (latchArg v s).precision = s.precision := rfl
@[simp] theorem latchArg_qState : (latchArg v s).qState = s.qState := rfl
@[simp] theorem latchArg_abPrev : (latchArg v s).abPrev = s.abPrev := rfl
@[simp] theorem latchArg_encPuEn : (latchArg v s).encPuEn = s.encPuEn := rfl
@[simp] theorem latchArg_owState : (latchArg v s).owState = s.owState := rfl
@[simp] theorem latchArg_scratchpad : (latchArg v s).scratchpad = s.scratchpad := rfl
@[simp] theorem latchArg_romBuf : (latchArg v s).romBuf = s.romBuf := rfl
@[simp] theorem latchArg_resolution : (latchArg v s).resolution = s.resolution := rfl
@[simp] theorem latchArg_seq : (latchArg v s).seq = s.seq := rfl
@[simp] theorem latchArg_cmdOp : (latchArg v s).cmdOp = s.cmdOp := rfl
@[simp] theorem latchArg_cmdRp : (latchArg v s).cmdRp = s.cmdRp := rfl
@[simp] theorem latchArg_cmdArg : (latchArg v s).cmdArg = v := rfl
@[simp] theorem latchArg_cmdRom : (latchArg v s).cmdRom = s.cmdRom := rfl
@[simp] theorem latchArg_rspValid : (latchArg v s).rspValid = s.rspValid := rfl
@[simp] theorem latchArg_rspStatus : (latchArg v s).rspStatus = s.rspStatus := rfl
@[simp] theorem latchArg_rspData : (latchArg v s).rspData = s.rspData := rfl
@[simp] theorem latchArg_presence : (latchArg v s).presence = s.presence := rfl
@[simp] theorem latchArg_dqOe : (latchArg v s).dqOe = s.dqOe := rfl
@[simp] theorem latchArg_dqSampled : (latchArg v s).dqSampled = s.dqSampled := rfl
@[simp] theorem latchArg_shiftReg : (latchArg v s).shiftReg = s.shiftReg := rfl
@[simp] theorem latchArg_rstN : (latchArg v s).rstN = s.rstN := rfl
@[simp] theorem latchArg_encA : (latchArg v s).encA = s.encA := rfl
@[simp] theorem latchArg_encB : (latchArg v s).encB = s.encB := rfl
@[simp] theorem latchArg_cmds : (latchArg v s).cmds = s.cmds := rfl
@[simp] theorem latchArg_rspReady : (latchArg v s).rspReady = s.rspReady := rfl
@[simp] theorem latchArg_events : (latchArg v s).events = s.events := rfl
@[simp] theorem latchArg_answers : (latchArg v s).answers = s.answers := rfl
@[simp] theorem latchArg_samples : (latchArg v s).samples = s.samples := rfl
@[simp] theorem latchArg_trace : (latchArg v s).trace = s.trace := rfl
@[simp] theorem latchArg_waited : (latchArg v s).waited = s.waited := rfl
@[simp] theorem latchArg_cfg : (latchArg v s).cfg = s.cfg := rfl

end

section
variable (s : State)

@[simp] theorem sampleDq_oldAb : (sampleDq s).oldAb = s.oldAb := rfl
@[simp] theorem sampleDq_counter : (sampleDq s).counter = s.counter := rfl
@[simp] theorem sampleDq_precision : (sampleDq s).precision = s.precision := rfl
@[simp] theorem sampleDq_qState : (sampleDq s).qState = s.qState := rfl
@[simp] theorem sampleDq_abPrev : (sampleDq s).abPrev = s.abPrev := rfl
@[simp] theorem sampleDq_encPuEn : (sampleDq s).encPuEn = s.encPuEn := rfl
@[simp] theorem sampleDq_owState : (sampleDq s).owState = s.owState := rfl
@[simp] theorem sampleDq_scratchpad : (sampleDq s).scratchpad = s.scratchpad := rfl
@[simp] theorem sampleDq_romBuf : (sampleDq s).romBuf = s.romBuf := rfl
@[simp] theorem sampleDq_resolution : (sampleDq s).resolution = s.resolution := rfl
@[simp] theorem sampleDq_seq : (sampleDq s).seq = s.seq := rfl
@[simp] theorem sampleDq_cmdOp : (sampleDq s).cmdOp = s.cmdOp := rfl
@[simp] theorem sampleDq_cmdRp : (sampleDq s).cmdRp = s.cmdRp := rfl
@[simp] theorem sampleDq_cmdArg : (sampleDq s).cmdArg = s.cmdArg := rfl
@[simp] theorem sampleDq_cmdRom : (sampleDq s).cmdRom = s.cmdRom := rfl
@[simp] theorem sampleDq_rspValid : (sampleDq s).rspValid = s.rspValid := rfl
@[simp] theorem sampleDq_rspStatus : (sampleDq s).rspStatus = s.rspStatus := rfl
@[simp] theorem sampleDq_rspData : (sampleDq s).rspData = s.rspData := rfl
@[simp] theorem sampleDq_presence : (sampleDq s).presence = s.presence := rfl
@[simp] theorem sampleDq_dqOe : (sampleDq s).dqOe = s.dqOe := rfl
@[simp] theorem sampleDq_dqSampled : (sampleDq s).dqSampled = levelAt s.answers s.samples := rfl
@[simp] theorem sampleDq_shiftReg : (sampleDq s).shiftReg = s.shiftReg := rfl
@[simp] theorem sampleDq_rstN : (sampleDq s).rstN = s.rstN := rfl
@[simp] theorem sampleDq_encA : (sampleDq s).encA = s.encA := rfl
@[simp] theorem sampleDq_encB : (sampleDq s).encB = s.encB := rfl
@[simp] theorem sampleDq_cmds : (sampleDq s).cmds = s.cmds := rfl
@[simp] theorem sampleDq_rspReady : (sampleDq s).rspReady = s.rspReady := rfl
@[simp] theorem sampleDq_events : (sampleDq s).events = s.events := rfl
@[simp] theorem sampleDq_answers : (sampleDq s).answers = s.answers := rfl
@[simp] theorem sampleDq_samples : (sampleDq s).samples = s.samples + 1 := rfl
@[simp] theorem sampleDq_trace : (sampleDq s).trace = s.trace := rfl
@[simp] theorem sampleDq_waited : (sampleDq s).waited = s.waited := rfl
@[simp] theorem sampleDq_cfg : (sampleDq s).cfg = s.cfg := rfl

end

section
variable (s : State)

@[simp] theorem advance_oldAb : (advance s).oldAb = s.oldAb := rfl
@[simp] theorem advance_counter : (advance s).counter = s.counter := rfl
@[simp] theorem advance_precision : (advance s).precision = s.precision := rfl
@[simp] theorem advance_qState : (advance s).qState = s.qState := rfl
@[simp] theorem advance_abPrev : (advance s).abPrev = s.abPrev := rfl
@[simp] theorem advance_encPuEn : (advance s).encPuEn = s.encPuEn := rfl
@[simp] theorem advance_owState : (advance s).owState = s.owState := rfl
@[simp] theorem advance_scratchpad : (advance s).scratchpad = s.scratchpad := rfl
@[simp] theorem advance_romBuf : (advance s).romBuf = s.romBuf := rfl
@[simp] theorem advance_resolution : (advance s).resolution = s.resolution := rfl
@[simp] theorem advance_seq : (advance s).seq = s.seq.bump 1 := rfl
@[simp] theorem advance_cmdOp : (advance s).cmdOp = s.cmdOp := rfl
@[simp] theorem advance_cmdRp : (advance s).cmdRp = s.cmdRp := rfl
@[simp] theorem advance_cmdArg : (advance s).cmdArg = s.cmdArg := rfl
@[simp] theorem advance_cmdRom : (advance s).cmdRom = s.cmdRom := rfl
@[simp] theorem advance_rspValid : (advance s).rspValid = s.rspValid := rfl
@[simp] theorem advance_rspStatus : (advance s).rspStatus = s.rspStatus := rfl
@[simp] theorem advance_rspData : (advance s).rspData = s.rspData := rfl
@[simp] theorem advance_presence : (advance s).presence = s.presence := rfl
@[simp] theorem advance_dqOe : (advance s).dqOe = s.dqOe := rfl
@[simp] theorem advance_dqSampled : (advance s).dqSampled = s.dqSampled := rfl
@[simp] theorem advance_shiftReg : (advance s).shiftReg = s.shiftReg := rfl
@[simp] theorem advance_rstN : (advance s).rstN = s.rstN := rfl
@[simp] theorem advance_encA : (advance s).encA = s.encA := rfl
@[simp] theorem advance_encB : (advance s).encB = s.encB := rfl
@[simp] theorem advance_cmds : (advance s).cmds = s.cmds := rfl
@[simp] theorem advance_rspReady : (advance s).rspReady = s.rspReady := rfl
@[simp] theorem advance_events : (advance s).events = s.events := rfl
@[simp] theorem advance_answers : (advance s).answers = s.answers := rfl
@[simp] theorem advance_samples : (advance s).samples = s.samples := rfl
@[simp] theorem advance_trace : (advance s).trace = s.trace := rfl
@[simp] theorem advance_waited : (advance s).waited = s.waited := rfl
@[simp] theorem advance_cfg : (advance s).cfg = s.cfg := rfl

end

section
variable (e : WireEvent) (s : State)

@[simp] theorem emit_oldAb : (emit e s).oldAb = s.oldAb := rfl
@[simp] theorem emit_counter : (emit e s).counter = s.counter := rfl
@[simp] theorem emit_precision : (emit e s).precision = s.precision := rfl
@[simp] theorem emit_qState : (emit e s).qState = s.qState := rfl
@[simp] theorem emit_abPrev : (emit e s).abPrev = s.abPrev := rfl
@[simp] theorem emit_encPuEn : (emit e s).encPuEn = s.encPuEn := rfl
@[simp] theorem emit_owState : (emit e s).owState = s.owState := rfl
@[simp] theorem emit_scratchpad : (emit e s).scratchpad = s.scratchpad := rfl
@[simp] theorem emit_romBuf : (emit e s).romBuf = s.romBuf := rfl
@[simp] theorem emit_resolution : (emit e s).resolution = s.resolution := rfl
@[simp] theorem emit_seq : (emit e s).seq = s.seq := rfl
@[simp] theorem emit_cmdOp : (emit e s).cmdOp = s.cmdOp := rfl
@[simp] theorem emit_cmdRp : (emit e s).cmdRp = s.cmdRp := rfl
@[simp] theorem emit_cmdArg : (emit e s).cmdArg = s.cmdArg := rfl
@[simp] theorem emit_cmdRom : (emit e s).cmdRom = s.cmdRom := rfl
@[simp] theorem emit_rspValid : (emit e s).rspValid = s.rspValid := rfl
@[simp] theorem emit_rspStatus : (emit e s).rspStatus = s.rspStatus := rfl
@[simp] theorem emit_rspData : (emit e s).rspData = s.rspData := rfl
@[simp] theorem emit_presence : (emit e s).presence = s.presence := rfl
@[simp] theorem emit_dqOe : (emit e s).dqOe = s.dqOe := rfl
@[simp] theorem emit_dqSampled : (emit e s).dqSampled = s.dqSampled := rfl
@[simp] theorem emit_shiftReg : (emit e s).shiftReg = s.shiftReg := rfl
@[simp] theorem emit_rstN : (emit e s).rstN = s.rstN := rfl
@[simp] theorem emit_encA : (emit e s).encA = s.encA := rfl
@[simp] theorem emit_encB : (emit e s).encB = s.encB := rfl
@[simp] theorem emit_cmds : (emit e s).cmds = s.cmds := rfl
@[simp] theorem emit_rspReady : (emit e s).rspReady = s.rspReady := rfl
@[simp] theorem emit_events : (emit e s).events = s.events := rfl
@[simp] theorem emit_answers : (emit e s).answers = s.answers := rfl
@[simp] theorem emit_samples : (emit e s).samples = s.samples := rfl
@[simp] theorem emit_trace : (emit e s).trace = s.trace ++ [e] := rfl
@[simp] theorem emit_waited : (emit e s).waited = s.waited := rfl
@[simp] theorem emit_cfg : (emit e s).cfg = s.cfg := rfl

end

section
variable (op : WireCmd) (s : State)

@[simp] theorem enter_oldAb : (enter op s).oldAb = s.oldAb := rfl
@[simp] theorem enter_counter : (enter op s).counter = s.counter := rfl
@[simp] theorem enter_precision : (enter op s).precision = s.precision := rfl
@[simp] theorem enter_qState : (enter op s).qState = s.qState := rfl
@[simp] theorem enter_abPrev : (enter op s).abPrev = s.abPrev := rfl
@[simp] theorem enter_encPuEn : (enter op s).encPuEn = s.encPuEn := rfl
@[simp] theorem enter_owState : (enter op s).owState = s.owState := rfl
@[simp] theorem enter_scratchpad : (enter op s).scratchpad = s.scratchpad := rfl
@[simp] theorem enter_romBuf : (enter op s).romBuf = s.romBuf := rfl
@[simp] theorem enter_resolution : (enter op s).resolution = s.resolution := rfl
@[simp] theorem enter_seq : (enter op s).seq = .busy op 0 := rfl
@[simp] theorem enter_cmdOp : (enter op s).cmdOp = s.cmdOp := rfl
@[simp] theorem enter_cmdRp : (enter op s).cmdRp = s.cmdRp := rfl
@[simp] theorem enter_cmdArg : (enter op s).cmdArg = s.cmdArg := rfl
@[simp] theorem enter_cmdRom : (enter op s).cmdRom = s.cmdRom := rfl
@[simp] theorem enter_rspValid : (enter op s).rspValid = s.rspValid := rfl
@[simp] theorem enter_rspStatus : (enter op s).rspStatus = s.rspStatus := rfl
@[simp] theorem enter_rspData : (enter op s).rspData = s.rspData := rfl
@[simp] theorem enter_presence : (enter op s).presence = s.presence := rfl
@[simp] theorem enter_dqOe : (enter op s).dqOe = s.dqOe := rfl
@[simp] theorem enter_dqSampled : (enter op s).dqSampled = s.dqSampled := rfl
@[simp] theorem enter_shiftReg : (enter op s).shiftReg = s.shiftReg := rfl
@[simp] theorem enter_rstN : (enter op s).rstN = s.rstN := rfl
@[simp] theorem enter_encA : (enter op s).encA = s.encA := rfl
@[simp] theorem enter_encB : (enter op s).encB = s.encB := rfl
@[simp] theorem enter_cmds : (enter op s).cmds = s.cmds := rfl
@[simp] theorem enter_rspReady : (enter op s).rspReady = s.rspReady := rfl
@[simp] theorem enter_events : (enter op s).events = s.events := rfl
@[simp] theorem enter_answers : (enter op s).answers = s.answers := rfl
@[simp] theorem enter_samples : (enter op s).samples = s.samples := rfl
@[simp] theorem enter_trace : (enter op s).trace = s.trace := rfl
@[simp] theorem enter_waited : (enter op s).waited = s.waited := rfl
@[simp] theorem enter_cfg : (enter op s).cfg = s.cfg := rfl

end

section
variable (a b : Bool) (s : State)

@[simp] theorem edgeEvent_oldAb : (edgeEvent a b s).oldAb = edgeIndex s a b := rfl
@[simp] theorem edgeEvent_counter : (edgeEvent a b s).counter = s.counter + BitVec.ofInt 32 (lut (edgeIndex s a b)) := rfl
@[simp] theorem edgeEvent_precision : (edgeEvent a b s).precision = s.precision := rfl
@[simp] theorem edgeEvent_qState : (edgeEvent a b s).qState = s.qState := rfl
@[simp] theorem edgeEvent_abPrev : (edgeEvent a b s).abPrev = s.abPrev := rfl
@[simp] theorem edgeEvent_encPuEn : (edgeEvent a b s).encPuEn = s.encPuEn := rfl
@[simp] theorem edgeEvent_owState : (edgeEvent a b s).owState = s.owState := rfl
@[simp] theorem edgeEvent_scratchpad : (edgeEvent a b s).scratchpad = s.scratchpad := rfl
@[simp] theorem edgeEvent_romBuf : (edgeEvent a b s).romBuf = s.romBuf := rfl
@[simp] theorem edgeEvent_resolution : (edgeEvent a b s).resolution = s.resolution := rfl
@[simp] theorem edgeEvent_seq : (edgeEvent a b s).seq = s.seq := rfl
@[simp] theorem edgeEvent_cmdOp : (edgeEvent a b s).cmdOp = s.cmdOp := rfl
@[simp] theorem edgeEvent_cmdRp : (edgeEvent a b s).cmdRp = s.cmdRp := rfl
@[simp] theorem edgeEvent_cmdArg : (edgeEvent a b s).cmdArg = s.cmdArg := rfl
@[simp] theorem edgeEvent_cmdRom : (edgeEvent a b s).cmdRom = s.cmdRom := rfl
@[simp] theorem edgeEvent_rspValid : (edgeEvent a b s).rspValid = s.rspValid := rfl
@[simp] theorem edgeEvent_rspStatus : (edgeEvent a b s).rspStatus = s.rspStatus := rfl
@[simp] theorem edgeEvent_rspData : (edgeEvent a b s).rspData = s.rspData := rfl
@[simp] theorem edgeEvent_presence : (edgeEvent a b s).presence = s.presence := rfl
@[simp] theorem edgeEvent_dqOe : (edgeEvent a b s).dqOe = s.dqOe := rfl
@[simp] theorem edgeEvent_dqSampled : (edgeEvent a b s).dqSampled = s.dqSampled := rfl
@[simp] theorem edgeEvent_shiftReg : (edgeEvent a b s).shiftReg = s.shiftReg := rfl
@[simp] theorem edgeEvent_rstN : (edgeEvent a b s).rstN = s.rstN := rfl
@[simp] theorem edgeEvent_encA : (edgeEvent a b s).encA = s.encA := rfl
@[simp] theorem edgeEvent_encB : (edgeEvent a b s).encB = s.encB := rfl
@[simp] theorem edgeEvent_cmds : (edgeEvent a b s).cmds = s.cmds := rfl
@[simp] theorem edgeEvent_rspReady : (edgeEvent a b s).rspReady = s.rspReady := rfl
@[simp] theorem edgeEvent_events : (edgeEvent a b s).events = s.events := rfl
@[simp] theorem edgeEvent_answers : (edgeEvent a b s).answers = s.answers := rfl
@[simp] theorem edgeEvent_samples : (edgeEvent a b s).samples = s.samples := rfl
@[simp] theorem edgeEvent_trace : (edgeEvent a b s).trace = s.trace := rfl
@[simp] theorem edgeEvent_waited : (edgeEvent a b s).waited = s.waited := rfl
@[simp] theorem edgeEvent_cfg : (edgeEvent a b s).cfg = s.cfg := rfl

end

section
variable (w : CmdWord) (r : List CmdWord) (s : State)

@[simp] theorem accept_oldAb : (accept w r s).oldAb = s.oldAb := rfl
@[simp] theorem accept_counter : (accept w r s).counter = s.counter := rfl
@[simp] theorem accept_precision : (accept w r s).precision = s.precision := rfl
@[simp] theorem accept_qState : (accept w r s).qState = s.qState := rfl
@[simp] theorem accept_abPrev : (accept w r s).abPrev = s.abPrev := rfl
@[simp] theorem accept_encPuEn : (accept w r s).encPuEn = s.encPuEn := rfl
@[simp] theorem accept_owState : (accept w r s).owState = s.owState := rfl
@[simp] theorem accept_scratchpad : (accept w r s).scratchpad = s.scratchpad := rfl
@[simp] theorem accept_romBuf : (accept w r s).romBuf = s.romBuf := rfl
@[simp] theorem accept_resolution : (accept w r s).resolution = s.resolution := rfl
@[simp] theorem accept_seq : (accept w r s).seq = s.seq := rfl
@[simp] theorem accept_cmdOp : (accept w r s).cmdOp = w.op := rfl
@[simp] theorem accept_cmdRp : (accept w r s).cmdRp = w.rp := rfl
@[simp] theorem accept_cmdArg : (accept w r s).cmdArg = w.arg := rfl
@[simp] theorem accept_cmdRom : (accept w r s).cmdRom = w.rom := rfl
@[simp] theorem accept_rspValid : (accept w r s).rspValid = s.rspValid := rfl
@[simp] theorem accept_rspStatus : (accept w r s).rspStatus = s.rspStatus := rfl
@[simp] theorem accept_rspData : (accept w r s).rspData = s.rspData := rfl
@[simp] theorem accept_presence : (accept w r s).presence = s.presence := rfl
@[simp] theorem accept_dqOe : (accept w r s).dqOe = s.dqOe := rfl
@[simp] theorem accept_dqSampled : (accept w r s).dqSampled = s.dqSampled := rfl
@[simp] theorem accept_shiftReg : (accept w r s).shiftReg = s.shiftReg := rfl
@[simp] theorem accept_rstN : (accept w r s).rstN = s.rstN := rfl
@[simp] theorem accept_encA : (accept w r s).encA = s.encA := rfl
@[simp] theorem accept_encB : (accept w r s).encB = s.encB := rfl
@[simp] theorem accept_cmds : (accept w r s).cmds = r := rfl
@[simp] theorem accept_rspReady : (accept w r s).rspReady = s.rspReady := rfl
@[simp] theorem accept_events : (accept w r s).events = s.events := rfl
@[simp] theorem accept_answers : (accept w r s).answers = s.answers := rfl
@[simp] theorem accept_samples : (accept w r s).samples = s.samples := rfl
@[simp] theorem accept_trace : (accept w r s).trace = s.trace := rfl
@[simp] theorem accept_waited : (accept w r s).waited = s.waited := rfl
@[simp] theorem accept_cfg : (accept w r s).cfg = s.cfg := rfl

end

section
variable (s : State)

@[simp] theorem resetBlock_oldAb : (resetBlock s).oldAb = State.reset.oldAb := rfl
@[simp] theorem resetBlock_counter : (resetBlock s).counter = State.reset.counter := rfl
@[simp] theorem resetBlock_precision : (resetBlock s).precision = State.reset.precision := rfl
@[simp] theorem resetBlock_qState : (resetBlock s).qState = State.reset.qState := rfl
@[simp] theorem resetBlock_abPrev : (resetBlock s).abPrev = State.reset.abPrev := rfl
@[simp] theorem resetBlock_encPuEn : (resetBlock s).encPuEn = State.reset.encPuEn := rfl
@[simp] theorem resetBlock_owState : (resetBlock s).owState = State.reset.owState := rfl
@[simp] theorem resetBlock_scratchpad : (resetBlock s).scratchpad = State.reset.scratchpad := rfl
@[simp] theorem resetBlock_romBuf : (resetBlock s).romBuf = State.reset.romBuf := rfl
@[simp] theorem resetBlock_resolution : (resetBlock s).resolution = State.reset.resolution := rfl
@[simp] theorem resetBlock_seq : (resetBlock s).seq = State.reset.seq := rfl
@[simp] theorem resetBlock_cmdOp : (resetBlock s).cmdOp = State.reset.cmdOp := rfl
@[simp] theorem resetBlock_cmdRp : (resetBlock s).cmdRp = State.reset.cmdRp := rfl
@[simp] theorem resetBlock_cmdArg : (resetBlock s).cmdArg = State.reset.cmdArg := rfl
@[simp] theorem resetBlock_cmdRom : (resetBlock s).cmdRom = State.reset.cmdRom := rfl
@[simp] theorem resetBlock_rspValid : (resetBlock s).rspValid = State.reset.rspValid := rfl
@[simp] theorem resetBlock_rspStatus : (resetBlock s).rspStatus = State.reset.rspStatus := rfl
@[simp] theorem resetBlock_rspData : (resetBlock s).rspData = State.reset.rspData := rfl
@[simp] theorem resetBlock_presence : (resetBlock s).presence = State.reset.presence := rfl
@[simp] theorem resetBlock_dqOe : (resetBlock s).dqOe = State.reset.dqOe := rfl
@[simp] theorem resetBlock_dqSampled : (resetBlock s).dqSampled = State.reset.dqSampled := rfl
@[simp] theorem resetBlock_shiftReg : (resetBlock s).shiftReg = State.reset.shiftReg := rfl
@[simp] theorem resetBlock_rstN : (resetBlock s).rstN = s.rstN := rfl
@[simp] theorem resetBlock_encA : (resetBlock s).encA = s.encA := rfl
@[simp] theorem resetBlock_encB : (resetBlock s).encB = s.encB := rfl
@[simp] theorem resetBlock_cmds : (resetBlock s).cmds = s.cmds := rfl
@[simp] theorem resetBlock_rspReady : (resetBlock s).rspReady = s.rspReady := rfl
@[simp] theorem resetBlock_events : (resetBlock s).events = s.events := rfl
@[simp] theorem resetBlock_answers : (resetBlock s).answers = s.answers := rfl
@[simp] theorem resetBlock_samples : (resetBlock s).samples = s.samples := rfl
@[simp] theorem resetBlock_trace : (resetBlock s).trace = s.trace := rfl
@[simp] theorem resetBlock_waited : (resetBlock s).waited = s.waited := rfl
@[simp] theorem resetBlock_cfg : (resetBlock s).cfg = s.cfg := rfl

end

section
variable (rid : Option RomId) (s : State)

@[simp] theorem latchRomId_oldAb : (latchRomId rid s).oldAb = s.oldAb := by cases rid <;> rfl
@[simp] theorem latchRomId_counter : (latchRomId rid s).counter = s.counter := by cases rid <;> rfl
@[simp] theorem latchRomId_precision : (latchRomId rid s).precision = s.precision := by cases rid <;> rfl
@[simp] theorem latchRomId_qState : (latchRomId rid s).qState = s.qState := by cases rid <;> rfl
@[simp] theorem latchRomId_abPrev : (latchRomId rid s).abPrev = s.abPrev := by cases rid <;> rfl
@[simp] theorem latchRomId_encPuEn : (latchRomId rid s).encPuEn = s.encPuEn := by cases rid <;> rfl
@[simp] theorem latchRomId_owState : (latchRomId rid s).owState = s.owState := by cases rid <;> rfl
@[simp] theorem latchRomId_scratchpad : (latchRomId rid s).scratchpad = s.scratchpad := by cases rid <;> rfl
@[simp] theorem latchRomId_romBuf : (latchRomId rid s).romBuf = s.romBuf := by cases rid <;> rfl
@[simp] theorem latchRomId_resolution : (latchRomId rid s).resolution = s.resolution := by cases rid <;> rfl
@[simp] theorem latchRomId_seq : (latchRomId rid s).seq = s.seq := by cases rid <;> rfl
@[simp] theorem latchRomId_cmdOp : (latchRomId rid s).cmdOp = s.cmdOp := by cases rid <;> rfl
@[simp] theorem latchRomId_cmdArg : (latchRomId rid s).cmdArg = s.cmdArg := by cases rid <;> rfl
@[simp] theorem latchRomId_rspValid : (latchRomId rid s).rspValid = s.rspValid := by cases rid <;> rfl
@[simp] theorem latchRomId_rspStatus : (latchRomId rid s).rspStatus = s.rspStatus := by cases rid <;> rfl
@[simp] theorem latchRomId_rspData : (latchRomId rid s).rspData = s.rspData := by cases rid <;> rfl
@[simp] theorem latchRomId_presence : (latchRomId rid s).presence = s.presence := by cases rid <;> rfl
@[simp] theorem latchRomId_dqOe : (latchRomId rid s).dqOe = s.dqOe := by cases rid <;> rfl
@[simp] theorem latchRomId_dqSampled : (latchRomId rid s).dqSampled = s.dqSampled := by cases rid <;> rfl
@[simp] theorem latchRomId_shiftReg : (latchRomId rid s).shiftReg = s.shiftReg := by cases rid <;> rfl
@[simp] theorem latchRomId_rstN : (latchRomId rid s).rstN = s.rstN := by cases rid <;> rfl
@[simp] theorem latchRomId_encA : (latchRomId rid s).encA = s.encA := by cases rid <;> rfl
@[simp] theorem latchRomId_encB : (latchRomId rid s).encB = s.encB := by cases rid <;> rfl
@[simp] theorem latchRomId_cmds : (latchRomId rid s).cmds = s.cmds := by cases rid <;> rfl
@[simp] theorem latchRomId_rspReady : (latchRomId rid s).rspReady = s.rspReady := by cases rid <;> rfl
@[simp] theorem latchRomId_events : (latchRomId rid s).events = s.events := by cases rid <;> rfl
@[simp] theorem latchRomId_answers : (latchRomId rid s).answers = s.answers := by cases rid <;> rfl
@[simp] theorem latchRomId_samples : (latchRomId rid s).samples = s.samples := by cases rid <;> rfl
@[simp] theorem latchRomId_trace : (latchRomId rid s).trace = s.trace := by cases rid <;> rfl
@[simp] theorem latchRomId_waited : (latchRomId rid s).waited = s.waited := by cases rid <;> rfl
@[simp] theorem latchRomId_cfg : (latchRomId rid s).cfg = s.cfg := by cases rid <;> rfl
@[simp] theorem latchRomId_cmdRp : (latchRomId rid s).cmdRp = rid.isSome := by cases rid <;> rfl
@[simp] theorem latchRomId_cmdRom : (latchRomId rid s).cmdRom = rid.getD s.cmdRom := by cases rid <;> rfl

end

section
variable (s : State)

@[simp] theorem tick_oldAb : (tick s).oldAb = s.oldAb := by unfold tick; split <;> rfl
@[simp] theorem tick_counter : (tick s).counter = s.counter := by unfold tick; split <;> rfl
@[simp] theorem tick_precision : (tick s).precision = s.precision := by unfold tick; split <;> rfl
@[simp] theorem tick_qState : (tick s).qState = s.qState := by unfold tick; split <;> rfl
@[simp] theorem tick_abPrev : (tick s).abPrev = s.abPrev := by unfold tick; split <;> rfl
@[simp] theorem tick_encPuEn : (tick s).encPuEn = s.encPuEn := by unfold tick; split <;> rfl
@[simp] theorem tick_owState : (tick s).owState = s.owState := by unfold tick; split <;> rfl
@[simp] theorem tick_scratchpad : (tick s).scratchpad = s.scratchpad := by unfold tick; split <;> rfl
@[simp] theorem tick_romBuf : (tick s).romBuf = s.romBuf := by unfold tick; split <;> rfl
@[simp] theorem tick_resolution : (tick s).resolution = s.resolution := by unfold tick; split <;> rfl
@[simp] theorem tick_seq : (tick s).seq = s.seq := by unfold tick; split <;> rfl
@[simp] theorem tick_cmdOp : (tick s).cmdOp = s.cmdOp := by unfold tick; split <;> rfl
@[simp] theorem tick_cmdRp : (tick s).cmdRp = s.cmdRp := by unfold tick; split <;> rfl
@[simp] theorem tick_cmdArg : (tick s).cmdArg = s.cmdArg := by unfold tick; split <;> rfl
@[simp] theorem tick_cmdRom : (tick s).cmdRom = s.cmdRom := by unfold tick; split <;> rfl
@[simp] theorem tick_rspValid : (tick s).rspValid = s.rspValid := by unfold tick; split <;> rfl
@[simp] theorem tick_rspStatus : (tick s).rspStatus = s.rspStatus := by unfold tick; split <;> rfl
@[simp] theorem tick_rspData : (tick s).rspData = s.rspData := by unfold tick; split <;> rfl
@[simp] theorem tick_presence : (tick s).presence = s.presence := by unfold tick; split <;> rfl
@[simp] theorem tick_dqOe : (tick s).dqOe = s.dqOe := by unfold tick; split <;> rfl
@[simp] theorem tick_dqSampled : (tick s).dqSampled = s.dqSampled := by unfold tick; split <;> rfl
@[simp] theorem tick_shiftReg : (tick s).shiftReg = s.shiftReg := by unfold tick; split <;> rfl
@[simp] theorem tick_rstN : (tick s).rstN = s.rstN := by unfold tick; split <;> rfl
@[simp] theorem tick_encA : (tick s).encA = s.encA := by unfold tick; split <;> rfl
@[simp] theorem tick_encB : (tick s).encB = s.encB := by unfold tick; split <;> rfl
@[simp] theorem tick_cmds : (tick s).cmds = s.cmds := by unfold tick; split <;> rfl
@[simp] theorem tick_rspReady : (tick s).rspReady = s.rspReady := by unfold tick; split <;> rfl
@[simp] theorem tick_answers : (tick s).answers = s.answers := by unfold tick; split <;> rfl
@[simp] theorem tick_samples : (tick s).samples = s.samples := by unfold tick; split <;> rfl
@[simp] theorem tick_trace : (tick s).trace = s.trace := by unfold tick; split <;> rfl
@[simp] theorem tick_waited : (tick s).waited = s.waited := by unfold tick; split <;> rfl
@[simp] theorem tick_cfg : (tick s).cfg = s.cfg := by unfold tick; split <;> rfl

end

end Sys2Proof.Machine
end

