-- ==== Sys2Proof/Laws/Link.lean ====
section
/-! SUPPORT. One law per shared operation of the link layer: straight code runs as a fold, and what each
block of it (a slot, a byte, a reset, a select, the two reads) does to the state. -/

namespace Sys2Proof.Machine

/-- A micro-operation that never ends the command. -/
def Micro.straight : Micro → Bool
  | .needPresence | .checkRom | .checkScratch | .completeZero | .completeRom | .completeTemp => false
  | _ => true

/-- The state after straight code. -/
def applyAll (ms : List Micro) (s : State) : State := ms.foldl (fun s m => microStep m s) s

@[simp] theorem applyAll_nil (s : State) : applyAll [] s = s := rfl

@[simp] theorem applyAll_cons (m : Micro) (ms : List Micro) (s : State) :
    applyAll (m :: ms) s = applyAll ms (microStep m s) := rfl

theorem applyAll_append (l ms : List Micro) (s : State) :
    applyAll (l ++ ms) s = applyAll ms (applyAll l s) := by
  simp [applyAll, List.foldl_append]

theorem applyAll_flatMap_cons {α : Type} (f : α → List Micro) (a : α) (as : List α) (ms : List Micro)
    (s : State) :
    applyAll ((a :: as).flatMap f ++ ms) s = applyAll (as.flatMap f ++ ms) (applyAll (f a) s) := by
  simp [applyAll_append]

@[simp] theorem bump_zero (q : Seq) : q.bump 0 = q := by cases q <;> rfl

@[simp] theorem bump_bump (q : Seq) (a b : Nat) : (q.bump a).bump b = q.bump (a + b) := by
  cases q <;> simp [Seq.bump, Nat.add_assoc]

@[simp] theorem bump_idle_iff (q : Seq) (n : Nat) : q.bump n = .idle ↔ q = .idle := by
  cases q <;> simp [Seq.bump]

/-- A straight micro-operation moves to the next position. -/
theorem microStep_seq_of_straight {m : Micro} (h : m.straight = true) (s : State) :
    (microStep m s).seq = s.seq.bump 1 := by
  cases m with
  | pad a => cases a <;> simp [microStep, padStep]
  | needPresence | checkRom | checkScratch | completeZero | completeRom | completeTemp =>
    simp [Micro.straight] at h
  | _ => simp [microStep]

theorem applyAll_seq {l : List Micro} (h : l.all Micro.straight = true) (s : State) :
    (applyAll l s).seq = s.seq.bump l.length := by
  induction l generalizing s with
  | nil => simp
  | cons m ms ih =>
    simp only [List.all_cons, Bool.and_eq_true] at h
    rw [applyAll_cons, ih h.2, microStep_seq_of_straight h.1, bump_bump, List.length_cons, Nat.add_comm]

/-- Running a micro-operation and what follows it. -/
theorem runCode_cons_of_busy {m : Micro} {s : State} (h : (microStep m s).seq ≠ .idle) (ms : List Micro) :
    runCode (m :: ms) s = runCode ms (microStep m s) := by
  rw [runCode]; split
  · exact absurd ‹_› h
  · rfl

theorem runCode_cons_of_idle {m : Micro} {s : State} (h : (microStep m s).seq = .idle) (ms : List Micro) :
    runCode (m :: ms) s = microStep m s := by
  simp [runCode, h]

/-- Straight code runs as a fold and leaves the rest to run. -/
theorem runCode_straight {l : List Micro} (h : l.all Micro.straight = true) {s : State}
    (hs : s.seq ≠ .idle) (ms : List Micro) : runCode (l ++ ms) s = runCode ms (applyAll l s) := by
  induction l generalizing s with
  | nil => rfl
  | cons m l ih =>
    simp only [List.all_cons, Bool.and_eq_true] at h
    have hb : (microStep m s).seq ≠ .idle := by
      rw [microStep_seq_of_straight h.1]; simpa using hs
    rw [List.cons_append, runCode_cons_of_busy hb, ih h.2 hb, applyAll_cons]

/-- `if p == 0: raise NotConnected` in the middle of code (42_ds18b20 R198). -/
theorem runCode_needPresence (ms : List Micro) {s : State} (hs : s.seq ≠ .idle) :
    runCode (.needPresence :: ms) s =
      if s.presence then runCode ms (advance s) else raise .notConnected s := by
  cases h : s.presence with
  | true => rw [runCode_cons_of_busy] <;> simp [microStep, h, hs]
  | false => rw [runCode_cons_of_idle] <;> simp [microStep, h]

/-- The CRC check of `ReadAddress` in the middle of code (R192). -/
theorem runCode_checkRom (ms : List Micro) {s : State} (hs : s.seq ≠ .idle) :
    runCode (.checkRom :: ms) s =
      if romValid s.romBuf then runCode ms (advance s) else raise .crcMismatch s := by
  cases h : romValid s.romBuf with
  | true => rw [runCode_cons_of_busy] <;> simp [microStep, h, hs]
  | false => rw [runCode_cons_of_idle] <;> simp [microStep, h]

/-- The CRC check of `ReadTemperature` in the middle of code (R196). -/
theorem runCode_checkScratch (ms : List Micro) {s : State} (hs : s.seq ≠ .idle) :
    runCode (.checkScratch :: ms) s =
      if scratchpadValid s.scratchpad then runCode ms (advance s) else raise .crcMismatch s := by
  cases h : scratchpadValid s.scratchpad with
  | true => rw [runCode_cons_of_busy] <;> simp [microStep, h, hs]
  | false => rw [runCode_cons_of_idle] <;> simp [microStep, h]

/-! ### Blocks -/

theorem resetCode_straight : resetCode.all Micro.straight = true := by decide

theorem writeByteCode_straight (b : Byte) : (writeByteCode b).all Micro.straight = true := by
  simp only [writeByteCode, List.all_append, List.all_flatMap, Bool.and_eq_true]
  refine ⟨?_, rfl⟩
  rw [List.all_eq_true]
  intro i _
  unfold writeBitCode
  split <;> decide

theorem writeBytesCode_straight (bs : List Byte) : (writeBytesCode bs).all Micro.straight = true := by
  simp [writeBytesCode, List.all_flatMap, writeByteCode_straight]

theorem readByteCode_straight : readByteCode.all Micro.straight = true := by decide

theorem readRomCode_straight : readRomCode.all Micro.straight = true := by
  simp [readRomCode, readByteCode_straight, Micro.straight]

theorem readScratchCode_straight : readScratchCode.all Micro.straight = true := by
  simp [readScratchCode, readByteCode_straight, Micro.straight]

/-- What a reset of the line does (R134). -/
theorem applyAll_resetCode (s : State) :
    applyAll resetCode s =
      { s with
        dqOe := false, dqSampled := levelAt s.answers s.samples, samples := s.samples + 1
        presence := s.nextPresence, trace := s.trace ++ [.reset s.nextPresence]
        waited := s.waited + s.cfg.times.tRstl + s.cfg.times.tPds + s.cfg.times.tRstr
        seq := s.seq.bump 7 } := by
  simp [resetCode, microStep, padStep, advance, emit, sampleDq, SlotTimes.get, State.nextPresence]

/-- The least time of one write slot (R135). -/
def writeBitTime (t : SlotTimes) (b : Bool) : Nat := if b then t.tW1l + t.tW1r else t.tW0l + t.tW0r

/-- The least time of one byte written (R136). -/
def writeByteTime (t : SlotTimes) (b : Byte) : Nat :=
  ([0, 1, 2, 3, 4, 5, 6, 7].map (fun i => writeBitTime t (b.getLsbD i))).sum

/-- The least time of bytes written. -/
def writeBytesTime (t : SlotTimes) (bs : List Byte) : Nat := (bs.map (writeByteTime t)).sum

theorem applyAll_writeBit (b : Bool) (s : State) :
    applyAll (writeBitCode b) s =
      { s with dqOe := false, waited := s.waited + writeBitTime s.cfg.times b, seq := s.seq.bump 4 } := by
  cases b <;>
    simp [writeBitCode, writeBitTime, microStep, padStep, advance, SlotTimes.get, Nat.add_assoc]

/-- What writing a byte does (R136). -/
theorem applyAll_writeByte (b : Byte) (s : State) :
    applyAll (writeByteCode b) s =
      { s with
        dqOe := false, trace := s.trace ++ [.sent b]
        waited := s.waited + writeByteTime s.cfg.times b, seq := s.seq.bump 33 } := by
  simp [writeByteCode, writeByteTime, List.flatMap_cons, applyAll_append, applyAll_writeBit, microStep,
    advance, emit, Nat.add_assoc]

/-- What writing bytes in a row does (20_memory R62). -/
theorem applyAll_writeBytes (bs : List Byte) (s : State) (h : bs ≠ []) :
    applyAll (writeBytesCode bs) s =
      { s with
        dqOe := false, trace := s.trace ++ sentAll bs
        waited := s.waited + writeBytesTime s.cfg.times bs, seq := s.seq.bump (33 * bs.length) } := by
  induction bs generalizing s with
  | nil => exact absurd rfl h
  | cons b bs ih =>
    have e : writeBytesCode (b :: bs) = writeByteCode b ++ writeBytesCode bs := by
      simp [writeBytesCode]
    rw [e, applyAll_append, applyAll_writeByte]
    cases bs with
    | nil => simp [writeBytesCode, sentAll, writeBytesTime]
    | cons c cs =>
      rw [ih _ (by simp)]
      simp only [sentAll, writeBytesTime, List.map_cons, List.sum_cons, List.length_cons, bump_bump,
        Nat.add_assoc, List.append_assoc, List.singleton_append]
      congr 2
      omega

/-- The least time of one read slot (R138). -/
def readBitTime (t : SlotTimes) : Nat := t.tRdl + t.tRds + t.tRdr

theorem applyAll_readBit (i : Nat) (s : State) :
    applyAll (readBitCode ++ [.takeBit i]) s =
      { s with
        dqOe := false, dqSampled := levelAt s.answers s.samples, samples := s.samples + 1
        shiftReg := setBit s.shiftReg i (levelAt s.answers s.samples)
        waited := s.waited + readBitTime s.cfg.times, seq := s.seq.bump 7 } := by
  simp [readBitCode, readBitTime, microStep, padStep, advance, sampleDq, SlotTimes.get, Nat.add_assoc]

/-- Eight bits set one after the other are the byte. -/
theorem setBit_eight (b0 b1 b2 b3 b4 b5 b6 b7 : Bool) :
    setBit (setBit (setBit (setBit (setBit (setBit (setBit (setBit 0 0 b0) 1 b1) 2 b2) 3 b3) 4 b4) 5 b5)
      6 b6) 7 b7 =
    BitVec.ofBool b7 ++ BitVec.ofBool b6 ++ BitVec.ofBool b5 ++ BitVec.ofBool b4 ++ BitVec.ofBool b3 ++
      BitVec.ofBool b2 ++ BitVec.ofBool b1 ++ BitVec.ofBool b0 := by
  revert b0 b1 b2 b3 b4 b5 b6 b7; decide

theorem sum_eight (r : Nat) : r + (r + (r + (r + (r + (r + (r + r)))))) = 8 * r := by omega

theorem sum_nine (r : Nat) : r + (r + (r + (r + (r + (r + (r + (r + r))))))) = 9 * r := by omega

/-- What reading a byte does (R137). -/
theorem applyAll_readByte (s : State) :
    applyAll readByteCode s =
      { s with
        dqOe := false, dqSampled := levelAt s.answers (s.samples + 7), samples := s.samples + 8
        shiftReg := byteAt s.answers s.samples, trace := s.trace ++ [.received (byteAt s.answers s.samples)]
        waited := s.waited + 8 * readBitTime s.cfg.times, seq := s.seq.bump 58 } := by
  unfold readByteCode
  rewrite [List.cons_append, applyAll_cons]
  iterate 8 rewrite [applyAll_flatMap_cons, applyAll_readBit]
  simp only [List.flatMap_nil, List.nil_append, applyAll_cons, applyAll_nil, microStep, advance, emit, byteAt,
    setBit_eight, bump_bump, Nat.add_assoc, Nat.reduceAdd, sum_eight]

/-- Reading a byte into `rom_buf[i]` (42_ds18b20 R192). -/
theorem applyAll_readRomByte (i : Fin 8) (s : State) :
    applyAll (readByteCode ++ [.storeRom i]) s =
      { s with
        dqOe := false, dqSampled := levelAt s.answers (s.samples + 7), samples := s.samples + 8
        shiftReg := byteAt s.answers s.samples, trace := s.trace ++ [.received (byteAt s.answers s.samples)]
        romBuf := s.romBuf.set i (byteAt s.answers s.samples)
        waited := s.waited + 8 * readBitTime s.cfg.times, seq := s.seq.bump 59 } := by
  simp [applyAll_append, applyAll_readByte, microStep, advance]

/-- Reading a byte into `scratchpad[i]` (42_ds18b20 R196). -/
theorem applyAll_readScratchByte (i : Fin 9) (s : State) :
    applyAll (readByteCode ++ [.storeScratch i]) s =
      { s with
        dqOe := false, dqSampled := levelAt s.answers (s.samples + 7), samples := s.samples + 8
        shiftReg := byteAt s.answers s.samples, trace := s.trace ++ [.received (byteAt s.answers s.samples)]
        scratchpad := s.scratchpad.set i (byteAt s.answers s.samples)
        waited := s.waited + 8 * readBitTime s.cfg.times, seq := s.seq.bump 59 } := by
  simp [applyAll_append, applyAll_readByte, microStep, advance]

theorem set_eight (v : Vector Byte 8) (b0 b1 b2 b3 b4 b5 b6 b7 : Byte) :
    (((((((v.set (0 : Fin 8) b0).set (1 : Fin 8) b1).set (2 : Fin 8) b2).set (3 : Fin 8) b3).set (4 : Fin 8)
      b4).set (5 : Fin 8) b5).set (6 : Fin 8) b6).set (7 : Fin 8) b7 =
      #v[b0, b1, b2, b3, b4, b5, b6, b7] := by
  ext i hi
  have : i = 0 ∨ i = 1 ∨ i = 2 ∨ i = 3 ∨ i = 4 ∨ i = 5 ∨ i = 6 ∨ i = 7 := by omega
  rcases this with h | h | h | h | h | h | h | h <;> subst h <;> simp

theorem set_nine (v : Vector Byte 9) (b0 b1 b2 b3 b4 b5 b6 b7 b8 : Byte) :
    ((((((((v.set (0 : Fin 9) b0).set (1 : Fin 9) b1).set (2 : Fin 9) b2).set (3 : Fin 9) b3).set (4 : Fin 9)
      b4).set (5 : Fin 9) b5).set (6 : Fin 9) b6).set (7 : Fin 9) b7).set (8 : Fin 9) b8 =
      #v[b0, b1, b2, b3, b4, b5, b6, b7, b8] := by
  ext i hi
  have : i = 0 ∨ i = 1 ∨ i = 2 ∨ i = 3 ∨ i = 4 ∨ i = 5 ∨ i = 6 ∨ i = 7 ∨ i = 8 := by omega
  rcases this with h | h | h | h | h | h | h | h | h <;> subst h <;> simp

/-- The bytes read in a row from sample `n` on. -/
def bytesAt (answers : List Bool) (n : Nat) : Nat → List Byte
  | 0 => []
  | k + 1 => byteAt answers n :: bytesAt answers (n + 8) k

/-- What reading a ROM id does (R192). -/
theorem applyAll_readRom (s : State) :
    applyAll readRomCode s =
      { s with
        dqOe := false, dqSampled := levelAt s.answers (s.samples + 63), samples := s.samples + 64
        shiftReg := byteAt s.answers (s.samples + 56)
        trace := s.trace ++ receivedAll (bytesAt s.answers s.samples 8)
        romBuf := #v[byteAt s.answers s.samples, byteAt s.answers (s.samples + 8), byteAt s.answers (s.samples + 16),
          byteAt s.answers (s.samples + 24), byteAt s.answers (s.samples + 32), byteAt s.answers (s.samples + 40),
          byteAt s.answers (s.samples + 48), byteAt s.answers (s.samples + 56)]
        waited := s.waited + 64 * readBitTime s.cfg.times, seq := s.seq.bump 472 } := by
  rewrite [← List.append_nil readRomCode]
  unfold readRomCode
  iterate 8 rewrite [applyAll_flatMap_cons, applyAll_readRomByte]
  simp only [List.flatMap_nil, List.nil_append, applyAll_nil, bump_bump, Nat.add_assoc, Nat.reduceAdd,
    bytesAt, receivedAll, List.map_cons, List.map_nil, List.append_assoc, List.cons_append,
    List.nil_append, sum_eight, ← Nat.mul_assoc, Nat.reduceMul]
  rw [set_eight s.romBuf]

/-- What reading a scratchpad does (R196). -/
theorem applyAll_readScratch (s : State) :
    applyAll readScratchCode s =
      { s with
        dqOe := false, dqSampled := levelAt s.answers (s.samples + 71), samples := s.samples + 72
        shiftReg := byteAt s.answers (s.samples + 64)
        trace := s.trace ++ receivedAll (bytesAt s.answers s.samples 9)
        scratchpad := #v[byteAt s.answers s.samples, byteAt s.answers (s.samples + 8), byteAt s.answers (s.samples + 16),
          byteAt s.answers (s.samples + 24), byteAt s.answers (s.samples + 32), byteAt s.answers (s.samples + 40),
          byteAt s.answers (s.samples + 48), byteAt s.answers (s.samples + 56), byteAt s.answers (s.samples + 64)]
        waited := s.waited + 72 * readBitTime s.cfg.times, seq := s.seq.bump 531 } := by
  rewrite [← List.append_nil readScratchCode]
  unfold readScratchCode
  iterate 9 rewrite [applyAll_flatMap_cons, applyAll_readScratchByte]
  simp only [List.flatMap_nil, List.nil_append, applyAll_nil, bump_bump, Nat.add_assoc, Nat.reduceAdd,
    bytesAt, receivedAll, List.map_cons, List.map_nil, List.append_assoc, List.cons_append,
    List.nil_append, sum_nine, ← Nat.mul_assoc, Nat.reduceMul]
  rw [set_nine s.scratchpad]

/-! ### The blocks in the middle of code -/

/-- The state after `OW.reset` and its presence check passed, or as it is when the check raises. -/
def afterReset (s : State) : State := applyAll resetCode s

/-- `ow_begin()` in front of code (42_ds18b20 R198). -/
theorem runCode_begin (ms : List Micro) {s : State} (hs : s.seq ≠ .idle) :
    runCode (beginCode ++ ms) s =
      if s.nextPresence then runCode ms (advance (afterReset s)) else raise .notConnected (afterReset s) := by
  have hb : (applyAll resetCode s).seq ≠ .idle := by simpa [applyAll_resetCode] using hs
  rw [beginCode, List.append_assoc, runCode_straight resetCode_straight hs, List.singleton_append,
    runCode_needPresence ms hb, afterReset]
  simp [applyAll_resetCode]

/-- Bytes sent in front of code (40_onewire_link R136, R139). -/
theorem runCode_writeBytes (bs : List Byte) (h : bs ≠ []) (ms : List Micro) {s : State}
    (hs : s.seq ≠ .idle) :
    runCode (writeBytesCode bs ++ ms) s =
      runCode ms
        { s with
          dqOe := false, trace := s.trace ++ sentAll bs
          waited := s.waited + writeBytesTime s.cfg.times bs, seq := s.seq.bump (33 * bs.length) } := by
  rw [runCode_straight (writeBytesCode_straight bs) hs, applyAll_writeBytes bs s h]

/-- A ROM id read in front of code (42_ds18b20 R192). -/
theorem runCode_readRom (ms : List Micro) {s : State} (hs : s.seq ≠ .idle) :
    runCode (readRomCode ++ ms) s = runCode ms (applyAll readRomCode s) :=
  runCode_straight readRomCode_straight hs ms

/-- A scratchpad read in front of code (42_ds18b20 R196). -/
theorem runCode_readScratch (ms : List Micro) {s : State} (hs : s.seq ≠ .idle) :
    runCode (readScratchCode ++ ms) s = runCode ms (applyAll readScratchCode s) :=
  runCode_straight readScratchCode_straight hs ms

/-- The bytes selected by the latched operands are those of the operand (R139, 30_encoding R100). -/
theorem selectBytes_latch (rid : Option RomId) (s : State) :
    selectBytes (latchRomId rid s).cmdRp (latchRomId rid s).cmdRom = selectedBytes rid := by
  cases rid <;> rfl

theorem selectedBytes_ne_nil (rid : Option RomId) : selectedBytes rid ≠ [] := by
  cases rid <;> simp [selectedBytes]

end Sys2Proof.Machine
end

