-- ==== Sys2Proof/Laws/Engine.lean ====
section
/-! SUPPORT. What one step of the OW engine leaves alone, where it goes, and how the whole of a command is
its steps; how each wire command begins. -/

namespace Sys2Proof.Machine

section
variable (m : Micro) (s : State)

/-- Everything no step of the OW engine writes: the quadrature core (20_memory R74), the latch (10_state
R30), the ports, what is to come from outside, the parameters. -/
theorem microStep_frame :
    microStep m s =
      { s with
        owState := (microStep m s).owState, scratchpad := (microStep m s).scratchpad
        romBuf := (microStep m s).romBuf, resolution := (microStep m s).resolution
        seq := (microStep m s).seq, rspValid := (microStep m s).rspValid
        rspStatus := (microStep m s).rspStatus, rspData := (microStep m s).rspData
        presence := (microStep m s).presence, dqOe := (microStep m s).dqOe
        dqSampled := (microStep m s).dqSampled, shiftReg := (microStep m s).shiftReg
        samples := (microStep m s).samples, trace := (microStep m s).trace
        waited := (microStep m s).waited } := by
  cases m
  case pad a => cases a <;> rfl
  case needPresence => simp only [microStep]; split <;> rfl
  case checkRom => simp only [microStep]; split <;> rfl
  case checkScratch => simp only [microStep]; split <;> rfl
  all_goals rfl

@[simp] theorem microStep_cmdRp : (microStep m s).cmdRp = s.cmdRp := by rw [microStep_frame]
@[simp] theorem microStep_cmdRom : (microStep m s).cmdRom = s.cmdRom := by rw [microStep_frame]
@[simp] theorem microStep_cmdArg : (microStep m s).cmdArg = s.cmdArg := by rw [microStep_frame]
@[simp] theorem microStep_cmdOp : (microStep m s).cmdOp = s.cmdOp := by rw [microStep_frame]
@[simp] theorem microStep_cmds : (microStep m s).cmds = s.cmds := by rw [microStep_frame]
@[simp] theorem microStep_events : (microStep m s).events = s.events := by rw [microStep_frame]
@[simp] theorem microStep_rstN : (microStep m s).rstN = s.rstN := by rw [microStep_frame]
@[simp] theorem microStep_answers : (microStep m s).answers = s.answers := by rw [microStep_frame]
@[simp] theorem microStep_cfg : (microStep m s).cfg = s.cfg := by rw [microStep_frame]
@[simp] theorem microStep_oldAb : (microStep m s).oldAb = s.oldAb := by rw [microStep_frame]
@[simp] theorem microStep_counter : (microStep m s).counter = s.counter := by rw [microStep_frame]
@[simp] theorem microStep_precision : (microStep m s).precision = s.precision := by rw [microStep_frame]
@[simp] theorem microStep_qState : (microStep m s).qState = s.qState := by rw [microStep_frame]
@[simp] theorem microStep_abPrev : (microStep m s).abPrev = s.abPrev := by rw [microStep_frame]
@[simp] theorem microStep_abNow : (microStep m s).abNow = s.abNow := by
  unfold State.abNow; rw [microStep_frame]

@[simp] theorem microStep_code (op : WireCmd) : (microStep m s).code op = s.code op := by
  simp [State.code]

/-- A step ends the command or moves to the next position (10_state R30). -/
theorem microStep_seq : (microStep m s).seq = .idle ∨ (microStep m s).seq = s.seq.bump 1 := by
  cases h : m.straight with
  | true => exact .inr (microStep_seq_of_straight h s)
  | false =>
    cases m <;> simp [Micro.straight] at h <;> simp only [microStep] <;> (repeat' split) <;> simp

end

/-- Running the command in flight is taking its next step and running on. -/
theorem runOut_microStep {s : State} {op : WireCmd} {k : Nat} {m : Micro} (hs : s.seq = .busy op k)
    (hm : (s.code op)[k]? = some m) : runOut s = runOut (microStep m s) := by
  obtain ⟨hk, hg⟩ := List.getElem?_eq_some_iff.1 hm
  have hd : (s.code op).drop k = m :: (s.code op).drop (k + 1) := by
    rw [List.drop_eq_getElem_cons hk, hg]
  have hl : runOut s = runCode (m :: (s.code op).drop (k + 1)) s := by simp [runOut, hs, hd]
  rw [hl]
  rcases microStep_seq m s with h | h
  · rw [runCode_cons_of_idle h]; simp [runOut, h]
  · have hb : (microStep m s).seq = .busy op (k + 1) := by rw [h, hs]; rfl
    rw [runCode_cons_of_busy (by simp [hb])]
    simp [runOut, hb]

/-! ### The OPEN parameters (00_scope R5) -/

/-- One step of the OW engine under another configuration and time spent: the same but for these two. -/
theorem microStep_withCfg (m : Micro) (s : State) (c : Config) (w : Nat) :
    ∃ w', microStep m { s with cfg := c, waited := w } = { microStep m s with cfg := c, waited := w' } ∧
      (c.times = s.cfg.times → w = s.waited → w' = (microStep m s).waited) := by
  cases m
  case pad a =>
    cases a
    case delay t => exact ⟨w + c.times.get t, rfl, fun h hw => by simp [microStep, padStep, advance, h, hw]⟩
    all_goals exact ⟨w, rfl, fun _ hw => hw⟩
  case needPresence =>
    cases h : s.presence <;>
      exact ⟨w, by simp [microStep, h, advance, raise], fun _ hw => by simp [microStep, h, hw]⟩
  case checkRom =>
    cases h : romValid s.romBuf <;>
      exact ⟨w, by simp [microStep, h, advance, raise], fun _ hw => by simp [microStep, h, hw]⟩
  case checkScratch =>
    cases h : scratchpadValid s.scratchpad <;>
      exact ⟨w, by simp [microStep, h, advance, raise], fun _ hw => by simp [microStep, h, hw]⟩
  all_goals exact ⟨w, rfl, fun _ hw => hw⟩

/-- The same of straight-line code run to its end. -/
theorem runCode_withCfg (ms : List Micro) (s : State) (c : Config) (w : Nat) :
    ∃ w', runCode ms { s with cfg := c, waited := w } = { runCode ms s with cfg := c, waited := w' } ∧
      (c.times = s.cfg.times → w = s.waited → w' = (runCode ms s).waited) := by
  induction ms generalizing s w with
  | nil => exact ⟨w, rfl, fun _ hw => hw⟩
  | cons m ms ih =>
    obtain ⟨w1, h1, hw1⟩ := microStep_withCfg m s c w
    by_cases hq : (microStep m s).seq = .idle
    · refine ⟨w1, ?_, ?_⟩
      · rw [runCode_cons_of_idle hq, runCode_cons_of_idle (by rw [h1]; exact hq), h1]
      · rw [runCode_cons_of_idle hq]; exact hw1
    · obtain ⟨w2, h2, hw2⟩ := ih (microStep m s) w1
      refine ⟨w2, ?_, fun hc hw => ?_⟩
      · rw [runCode_cons_of_busy hq, runCode_cons_of_busy (by rw [h1]; exact hq), h1, h2]
      · rw [runCode_cons_of_busy hq]; exact hw2 (by simpa using hc) (hw1 hc hw)

/-- The same of the command in flight. -/
theorem runOut_withCfg (s : State) (c : Config) (w : Nat) :
    ∃ w', runOut { s with cfg := c, waited := w } = { runOut s with cfg := c, waited := w' } ∧
      (c.times = s.cfg.times → w = s.waited → w' = (runOut s).waited) := by
  cases hq : s.seq with
  | idle => exact ⟨w, by simp [runOut, hq], by simp [runOut, hq]⟩
  | busy op k =>
    have h := runCode_withCfg ((s.code op).drop k) s c w
    simpa [runOut, hq, State.code] using h

/-! ### How the wire commands begin -/

section
variable {s : State}

theorem runOut_startReadAddress (hc : s.owState ≠ .created) :
    runOut (startReadAddress s) =
      runCode (beginCode ++ (writeBytesCode [0x33] ++ (readRomCode ++ [.checkRom, .completeRom])))
        (enter .readAddress s) := by
  simp [startReadAddress, whenConfigured, hc, enter, runOut, State.code, commandCode]

theorem runOut_startSetResolution (rid : Option RomId) (bits : Word) (hc : s.owState ≠ .created)
    (hb : bitsInRange bits = true) :
    runOut (startSetResolution rid bits s) =
      runCode
        (beginCode ++ (writeBytesCode (selectedBytes rid) ++
          (writeBytesCode [0x4E, 0xFF, 0x00, configByte bits] ++ [.keepResolution, .completeZero])))
        (enter .setResolution (latchArg bits (latchRomId rid s))) := by
  rw [← selectBytes_latch rid s]
  simp [startSetResolution, whenConfigured, hc, hb, enter, runOut, State.code, commandCode, selectCode]

theorem runOut_startRequestTemperature (rid : Option RomId) (hc : s.owState ≠ .created) :
    runOut (startRequestTemperature rid s) =
      runCode
        (beginCode ++ (writeBytesCode (selectedBytes rid) ++
          (writeBytesCode [0x44] ++ [.setOwState .converting, .completeZero])))
        (enter .requestTemperature (latchRomId rid s)) := by
  rw [← selectBytes_latch rid s]
  simp [startRequestTemperature, whenConfigured, hc, enter, runOut, State.code, commandCode, selectCode]

theorem runOut_startReadTemperature (rid : Option RomId) (hc : s.owState ≠ .created) :
    runOut (startReadTemperature rid s) =
      runCode
        (beginCode ++ (writeBytesCode (selectedBytes rid) ++ (writeBytesCode [0xBE] ++
          (readScratchCode ++ [.checkScratch, .setOwState .ready, .completeTemp]))))
        (enter .readTemperature (latchRomId rid s)) := by
  rw [← selectBytes_latch rid s]
  simp [startReadTemperature, whenConfigured, hc, enter, runOut, State.code, commandCode, selectCode]

end

end Sys2Proof.Machine
end

