-- ==== Sys2Proof/Laws/PerInstr.lean ====
section
/-! SUPPORT. The family `OpcodeField`: the opcode in the word of a well-formed instruction is one its row of
spec/opcode_table.json admits (30_encoding R96, R97). -/

namespace Sys2Proof.Laws.OpcodeField

/-- The opcodes of an instruction's row. -/
def rowOpcodes : Instr → List (BitVec 4)
  | .owConfigure => [0x1]
  | .readAddress => [0x2]
  | .setResolution _ _ => [0x3]
  | .requestTemperature _ => [0x4]
  | .readTemperature _ => [0x5]
  | .qConfigure _ => [0x8]
  | .position => [0x9]
  | .setPosition _ => [0xA]
  | .reserved0 => [0x0]
  | .reserved67 _ => [0x6, 0x7]
  | .reservedB => [0xB]
  | .reservedCF _ => [0xC, 0xD, 0xE, 0xF]

/-- A well-formed instruction is encoded under an opcode of its own row. -/
def Statement (i : Instr) : Prop := i.wellFormed = true → (encode i).op ∈ rowOpcodes i

theorem owConfigure : Statement .owConfigure := fun _ => by simp [encode, rowOpcodes]

theorem readAddress : Statement .readAddress := fun _ => by simp [encode, rowOpcodes]

theorem setResolution (rom : Option RomId) (bits : Word) : Statement (.setResolution rom bits) :=
  fun _ => by cases rom <;> simp [encode, packRomId, rowOpcodes]

theorem requestTemperature (rom : Option RomId) : Statement (.requestTemperature rom) :=
  fun _ => by cases rom <;> simp [encode, packRomId, rowOpcodes]

theorem readTemperature (rom : Option RomId) : Statement (.readTemperature rom) :=
  fun _ => by cases rom <;> simp [encode, packRomId, rowOpcodes]

theorem qConfigure (precision : Word) : Statement (.qConfigure precision) :=
  fun _ => by simp [encode, rowOpcodes]

theorem position : Statement .position := fun _ => by simp [encode, rowOpcodes]

theorem setPosition (v : Word) : Statement (.setPosition v) := fun _ => by simp [encode, rowOpcodes]

theorem reserved0 : Statement .reserved0 := fun _ => by simp [encode, rowOpcodes]

theorem reserved67 (op : BitVec 4) : Statement (.reserved67 op) :=
  fun h => by simpa [encode, rowOpcodes, Instr.wellFormed] using h

theorem reservedB : Statement .reservedB := fun _ => by simp [encode, rowOpcodes]

theorem reservedCF (op : BitVec 4) : Statement (.reservedCF op) :=
  fun h => by simpa [encode, rowOpcodes, Instr.wellFormed, or_assoc] using h

end Sys2Proof.Laws.OpcodeField
end

