-- ==== Sys2Proof/Laws/Step.lean ====
section
/-! SUPPORT. Everything a step of the machine can do, in one inversion lemma; `exec` as the first step of a
command run to its end; where the first step of a command leaves the sequencer; what an encoder event does. -/

namespace Sys2Proof.Machine

/-- A command's meaning is its first step and then the rest of its code. -/
theorem exec_eq_runOut (i : Instr) (s : State) : exec i s = .next (runOut (beginInstr i s)) := by
  cases i
  case qConfigure p =>
    simp only [exec, execQConfigure, beginInstr, startQConfigure]; split <;> simp [runOut]
  case position =>
    simp only [exec, execPosition, beginInstr, startPosition, whenArmed]; split <;> simp [runOut]
  case setPosition v =>
    simp only [exec, execSetPosition, beginInstr, startSetPosition, whenArmed]; split <;> simp [runOut]
  all_goals rfl

theorem tick_of_nil {s : State} (h : s.events = []) : tick s = s := by simp [tick, h]

theorem popDue_eq_none_iff (s : State) :
    popDue s = none ↔ s.events = [] ∨ ∃ n e es, s.events = (n + 1, e) :: es := by
  unfold popDue
  cases h : s.events with
  | nil => simp
  | cons p es =>
    obtain ⟨n, e⟩ := p
    cases n <;> simp

/-- Everything a step can do (30_encoding R90; 10_state R30; 70_reset R300): an event lands; nothing, in
reset; one step of the OW engine; the response held or consumed; nothing, Idle; a command whole; the first
step of a command. -/
theorem step_cases {s t : State} (h : step s = .next t) :
    (∃ e es, s.events = (0, e) :: es ∧ t = land e { s with events := es }) ∨
    (popDue s = none ∧ s.rstN = false ∧ t = tick s) ∨
    (popDue s = none ∧ s.rstN = true ∧ ∃ op k m, s.seq = .busy op k ∧ (s.code op)[k]? = some m ∧
      t = microStep m (tick s)) ∨
    (popDue s = none ∧ s.rstN = true ∧ s.seq = .idle ∧ s.rspValid = true ∧
      t = { tick s with rspValid := !s.rspReady }) ∨
    (popDue s = none ∧ s.rstN = true ∧ s.seq = .idle ∧ s.rspValid = false ∧ s.cmds = [] ∧ t = tick s) ∨
    (∃ w rest, popDue s = none ∧ s.rstN = true ∧ s.seq = .idle ∧ s.rspValid = false ∧
      s.cmds = w :: rest ∧ s.events = [] ∧ t = runOut (beginInstr (decode w) (accept w rest s))) ∨
    (∃ w rest, popDue s = none ∧ s.rstN = true ∧ s.seq = .idle ∧ s.rspValid = false ∧
      s.cmds = w :: rest ∧ s.events ≠ [] ∧ t = beginInstr (decode w) (accept w rest (tick s))) := by
  unfold step at h
  cases hp : popDue s with
  | some p =>
    left
    obtain ⟨e, u⟩ := p
    unfold popDue at hp
    split at hp
    · rename_i e' rest heq
      simp only [Option.some.injEq, Prod.mk.injEq] at hp
      obtain ⟨rfl, rfl⟩ := hp
      simp only [popDue, heq, Host.Outcome.next.injEq] at h
      exact ⟨_, _, heq, h.symm⟩
    · cases hp
  | none =>
    right
    simp only [hp, blockStep] at h
    cases hr : s.rstN with
    | false =>
      left
      simp only [hr, Bool.false_eq_true, if_false, Host.Outcome.next.injEq] at h
      exact ⟨rfl, rfl, h.symm⟩
    | true =>
      right
      simp only [hr, if_true] at h
      cases hs : s.seq with
      | busy op k =>
        left
        simp only [hs, engineStep] at h
        have hc : (tick s).code op = s.code op := by simp [State.code]
        rw [hc] at h
        cases hm : (s.code op)[k]? with
        | none => simp [hm] at h
        | some m =>
          simp only [hm, Host.Outcome.next.injEq] at h
          exact ⟨rfl, rfl, op, k, m, rfl, hm, h.symm⟩
      | idle =>
        right
        simp only [hs, portStep] at h
        cases hv : s.rspValid with
        | true =>
          left
          refine ⟨rfl, rfl, rfl, rfl, ?_⟩
          simp only [hv, if_true] at h
          cases hy : s.rspReady
          · simp only [hy, Bool.false_eq_true, if_false, Host.Outcome.next.injEq] at h
            subst h
            rw [Bool.not_false, ← hv, ← tick_rspValid s]
          · simp only [hy, if_true, Host.Outcome.next.injEq] at h
            exact h.symm
        | false =>
          right
          simp only [hv, Bool.false_eq_true, if_false] at h
          cases hc : s.cmds with
          | nil =>
            left
            simp only [hc, Host.Outcome.next.injEq] at h
            exact ⟨rfl, rfl, rfl, rfl, rfl, h.symm⟩
          | cons w rest =>
            right
            simp only [hc] at h
            cases he : s.events with
            | nil =>
              left
              simp only [he, exec_eq_runOut, Host.Outcome.next.injEq] at h
              exact ⟨w, rest, rfl, rfl, rfl, rfl, rfl, rfl, h.symm⟩
            | cons e es =>
              right
              simp only [he, Host.Outcome.next.injEq] at h
              exact ⟨w, rest, rfl, rfl, rfl, rfl, rfl, by simp, h.symm⟩

/-- The first step of a command ends it with a response, or enters a wire command at its first position. -/
theorem beginInstr_cases (i : Instr) (s : State) :
    ((beginInstr i s).seq = .idle ∧ (beginInstr i s).rspValid = true) ∨
    (s.owState ≠ .created ∧
      ((i = .readAddress ∧ beginInstr i s = enter .readAddress s) ∨
       (∃ rid bits, i = .setResolution rid bits ∧ bitsInRange bits = true ∧
          beginInstr i s = enter .setResolution (latchArg bits (latchRomId rid s))) ∨
       (∃ rid, i = .requestTemperature rid ∧
          beginInstr i s = enter .requestTemperature (latchRomId rid s)) ∨
       (∃ rid, i = .readTemperature rid ∧
          beginInstr i s = enter .readTemperature (latchRomId rid s)))) := by
  cases i
  case readAddress =>
    by_cases hc : s.owState = .created <;>
      simp [beginInstr, startReadAddress, whenConfigured, hc, enter]
  case setResolution rid bits =>
    by_cases hc : s.owState = .created
    · simp [beginInstr, startSetResolution, whenConfigured, hc]
    · cases hb : bitsInRange bits <;>
        simp [beginInstr, startSetResolution, whenConfigured, hc, hb]
  case requestTemperature rid =>
    by_cases hc : s.owState = .created <;>
      simp [beginInstr, startRequestTemperature, whenConfigured, hc]
  case readTemperature rid =>
    by_cases hc : s.owState = .created <;>
      simp [beginInstr, startReadTemperature, whenConfigured, hc]
  case qConfigure p =>
    left; simp only [beginInstr, startQConfigure]; split <;> simp
  case position =>
    left; simp only [beginInstr, startPosition, whenArmed]; split <;> simp
  case setPosition v =>
    left; simp only [beginInstr, startSetPosition, whenArmed]; split <;> simp
  all_goals simp [beginInstr, startOwConfigure, reservedOpcode]

/-- An entry of the table is −1, 0 or +1 (30_encoding R108). -/
theorem lut_bound (idx : BitVec 4) : lut idx = -1 ∨ lut idx = 0 ∨ lut idx = 1 := by
  revert idx; decide

/-- An encoder event writes the pin levels, the detector's sample, the history and the counter, nothing
else (41_quadrature R160, R162, R163). -/
theorem land_encoder_frame (e : Event) (s : State) (he : isEncoderEvent e = true) :
    land e s =
      { s with
        encA := (land e s).encA, encB := (land e s).encB, abPrev := (land e s).abPrev
        oldAb := (land e s).oldAb, counter := (land e s).counter } := by
  cases e <;> simp [isEncoderEvent] at he
  case pins a b => simp only [land, changePins, deliverEdge]; split <;> (try split) <;> rfl
  case qEdge a b => simp only [land, deliverEdge]; split <;> rfl

end Sys2Proof.Machine
end

