-- ==== Sys2Proof/Tests/Slice0.lean ====
section
/-! SUPPORT. The model's own tests. Expected values are those of spec/95_test_vectors.md (named in each
comment), spec/opcode_table.json, or written out by hand from 30_encoding R91. The second half holds one
witness for the hypotheses of each statement of Certificates/Slice0/Obligations.lean. -/

namespace Sys2Proof.Tests

open Sys2Proof Sys2Proof.Machine

/-! ### Helpers -/

/-- `ROM1` of 95_test_vectors. -/
def rom1 : RomId := #v[0x28, 0xFF, 0x64, 0x1E, 0x3A, 0x82, 0x01, 0x3F]

/-- The levels a device shows to send these bytes, least significant bit first. -/
def levels (bs : List Byte) : List Bool := bs.flatMap fun b => (List.range 8).map b.getLsbD

/-- A configured block, the environment answering presence `p` and then these bytes. -/
def wired (st : OwState) (p : Bool) (bs : List Byte) : State :=
  { State.reset with owState := st, answers := (!p) :: levels bs }

/-- A block with the quadrature core Ready. -/
def turning (counter precision : Word) : State :=
  { State.reset with qState := .ready, abPrev := 3, counter := counter, precision := precision }

/-- A view of the next state, if there is one. -/
def seen {α : Type} (f : State → α) : Host.Outcome State Fault Refusal → Option α
  | .next t => some (f t)
  | .fault _ => none
  | .refused _ => none

/-- The response word and the wire trace. -/
def answer (s : State) : RspWord × List WireEvent := (s.rspWord, s.trace)

/-- One step with this command word at the port. -/
def stepWord (w : CmdWord) (s : State) : Host.Outcome State Fault Refusal := step { s with cmds := [w] }

/-- The nine bytes of scenario S3 with the CRC byte `c`. -/
def scratch85 (c : Byte) : List Byte := [0x50, 0x05, 0x4B, 0x46, 0x7F, 0xFF, 0x0C, 0x10, c]

/-! ### WellFormed refuses an ill-formed term -/

theorem test_wellFormed_refuses_reserved67 :
    (Instr.reserved67 5).wellFormed = false ∧ (Instr.reserved67 8).wellFormed = false := by decide

theorem test_wellFormed_refuses_reservedCF :
    (Instr.reservedCF 0xB).wellFormed = false ∧ (Instr.reservedCF 0).wellFormed = false := by decide

/-! ### Decoding: words written out from 30_encoding R91, R96, R97 -/

/-- E1: op 0001. -/
theorem test_decode_owConfigure : decode 0x00000000000000000000000001 = .owConfigure := by decide

/-- E2: the don't-care bits of ReadAddress. -/
theorem test_decode_readAddress :
    decode 0x00000000000000000000000002 = .readAddress ∧
    decode 0x3F01823A1E64FF2812345678F2 = .readAddress := by decide

/-- E1: the signed operand, and the ROM id with its first byte lowest. -/
theorem test_decode_setResolution :
    decode 0x0000000000000000FFFFFFFF03 = .setResolution none (-1) ∧
    decode 0x3F01823A1E64FF280000000913 = .setResolution (some rom1) 9 := by decide

/-- E1, E2: `rp = 0` with a nonzero `rom` is `None`. -/
theorem test_decode_requestTemperature :
    decode 0x3F01823A1E64FF280000000014 = .requestTemperature (some rom1) ∧
    decode 0x3F01823A1E64FF280000000004 = .requestTemperature none := by decide

/-- E1. -/
theorem test_decode_readTemperature :
    decode 0x3F01823A1E64FF280000000015 = .readTemperature (some rom1) ∧
    decode 0x00000000000000000000000005 = .readTemperature none := by decide

/-- E1, E2: `rsv = 111` is ignored. -/
theorem test_decode_qConfigure :
    decode 0x0000000000000000FFFFFFFF08 = .qConfigure (-1) ∧
    decode 0x000000000000000000000000E8 = .qConfigure 0 := by decide

/-- E1. -/
theorem test_decode_position : decode 0x00000000000000000000000009 = .position := by decide

/-- E1. -/
theorem test_decode_setPosition :
    decode 0x0000000000000000FFFFFFFD0A = .setPosition (-3) ∧
    decode 0x0000000000000000200000000A = .setPosition 536870912 := by decide

/-- E3: the reserved opcodes. -/
theorem test_decode_reserved :
    decode 0x00 = .reserved0 ∧ decode 0x06 = .reserved67 6 ∧ decode 0x07 = .reserved67 7 ∧
    decode 0x0B = .reservedB ∧ decode 0x0C = .reservedCF 0xC ∧ decode 0x0D = .reservedCF 0xD ∧
    decode 0x0E = .reservedCF 0xE ∧ decode 0x0F = .reservedCF 0xF := by decide

/-- A row of spec/opcode_table.json: its mnemonic, mask and match. -/
structure Row where
  mnemonic : String
  mask : BitVec 4
  pattern : BitVec 4
deriving DecidableEq, Repr

/-- spec/opcode_table.json. -/
def table : List Row :=
  [⟨"OW.Configure", 0xF, 0x1⟩, ⟨"ReadAddress", 0xF, 0x2⟩, ⟨"SetResolution", 0xF, 0x3⟩,
   ⟨"RequestTemperature", 0xF, 0x4⟩, ⟨"ReadTemperature", 0xF, 0x5⟩, ⟨"Q.Configure", 0xF, 0x8⟩,
   ⟨"Position", 0xF, 0x9⟩, ⟨"SetPosition", 0xF, 0xA⟩, ⟨"RESERVED.0", 0xF, 0x0⟩,
   ⟨"RESERVED.6_7", 0xE, 0x6⟩, ⟨"RESERVED.B", 0xF, 0xB⟩, ⟨"RESERVED.C_F", 0xC, 0xC⟩]

/-- The row an instruction stands for. -/
def mnemonicOf : Instr → String
  | .owConfigure => "OW.Configure"
  | .readAddress => "ReadAddress"
  | .setResolution _ _ => "SetResolution"
  | .requestTemperature _ => "RequestTemperature"
  | .readTemperature _ => "ReadTemperature"
  | .qConfigure _ => "Q.Configure"
  | .position => "Position"
  | .setPosition _ => "SetPosition"
  | .reserved0 => "RESERVED.0"
  | .reserved67 _ => "RESERVED.6_7"
  | .reservedB => "RESERVED.B"
  | .reservedCF _ => "RESERVED.C_F"

/-- Exactly one row matches each opcode, and it is the row of the decoded instruction (R98). -/
theorem test_table_is_the_decoder :
    ∀ op : BitVec 4, (table.filter fun r => op &&& r.mask == r.pattern).map (·.mnemonic) =
      [mnemonicOf (decode (packWord op true 0x12345678 0x3F01823A1E64FF28))] := by decide +kernel

theorem test_decodeTableWord :
    decodeTableWord 8 0x01 = some .owConfigure ∧
    decodeTableWord 104 0x3F01823A1E64FF280000000C13 = some (.setResolution (some rom1) 12) ∧
    decodeTableWord 112 0 = none := by decide

/-! ### Encoding, response words -/

/-- E1. -/
theorem test_encode :
    encode (.setResolution (some rom1) 12) = 0x3F01823A1E64FF280000000C13 ∧
    encode (.setPosition (-3)) = 0x0000000000000000FFFFFFFD0A ∧
    encode (.readTemperature none) = 0x05 := by decide

/-- E4. -/
theorem test_rspWord :
    ({ State.reset with rspStatus := .crcMismatch } : State).rspWord = 0x000000000000000003 ∧
    ({ State.reset with rspData := data32 (-55000) } : State).rspWord = 0x00000000FFFF292800 ∧
    ({ State.reset with rspData := bitsOfRom rom1 } : State).rspWord = 0x3F01823A1E64FF2800 := by decide

/-! ### One-wire commands: one step each -/

/-- K1, K2. -/
theorem test_owConfigure :
    seen (fun t => (answer t, t.owState)) (exec .owConfigure State.reset) = some ((0, []), .ready) ∧
    seen (fun t => (answer t, t.owState)) (exec .owConfigure (wired .converting true [])) =
      some ((0, []), .ready) := by decide

/-- K3. -/
theorem test_readAddress_ok :
    seen (fun t => (answer t, t.romBuf)) (exec .readAddress (wired .ready true rom1.toList)) =
      some ((0x3F01823A1E64FF2800, [.reset true, .sent 0x33, .received 0x28, .received 0xFF,
        .received 0x64, .received 0x1E, .received 0x3A, .received 0x82, .received 0x01,
        .received 0x3F]), rom1) := by decide +kernel

/-- K4, K28: bytes that do not validate stay in the buffer. -/
theorem test_readAddress_crcMismatch :
    seen (fun t => (t.rspWord, t.romBuf.toList))
        (exec .readAddress (wired .ready true [0x28, 0xFF, 0x64, 0x1E, 0x3A, 0x82, 0x01, 0x3E])) =
      some (0x000000000000000003, [0x28, 0xFF, 0x64, 0x1E, 0x3A, 0x82, 0x01, 0x3E]) := by decide +kernel

/-- K9. -/
theorem test_setResolution_rom :
    seen (fun t => (answer t, t.resolution)) (exec (.setResolution (some rom1) 9) (wired .ready true [])) =
      some ((0, [.reset true, .sent 0x55, .sent 0x28, .sent 0xFF, .sent 0x64, .sent 0x1E, .sent 0x3A,
        .sent 0x82, .sent 0x01, .sent 0x3F, .sent 0x4E, .sent 0xFF, .sent 0x00, .sent 0x1F]), 9) := by
  decide +kernel

/-- K10, K11, K12: out of range, no device, and the state check before the range check. -/
theorem test_setResolution_other_ends :
    seen answer (exec (.setResolution none 8) (wired .ready true [])) = some (0, []) ∧
    seen answer (exec (.setResolution none (-1)) (wired .ready true [])) = some (0, []) ∧
    seen answer (exec (.setResolution none 12) (wired .ready false [])) = some (2, [.reset false]) ∧
    seen answer (exec (.setResolution none 13) State.reset) = some (4, []) := by decide +kernel

/-- K14. -/
theorem test_requestTemperature_rom :
    seen (fun t => (answer t, t.owState))
        (exec (.requestTemperature (some rom1)) (wired .ready true [])) =
      some ((0, [.reset true, .sent 0x55, .sent 0x28, .sent 0xFF, .sent 0x64, .sent 0x1E, .sent 0x3A,
        .sent 0x82, .sent 0x01, .sent 0x3F, .sent 0x44]), .converting) := by decide +kernel

/-- K15. -/
theorem test_requestTemperature_notConnected :
    seen (fun t => (answer t, t.owState)) (exec (.requestTemperature none) (wired .ready false [])) =
      some ((2, [.reset false]), .ready) := by decide +kernel

/-- K17. -/
theorem test_readTemperature_ok :
    seen (fun t => (answer t, t.owState))
        (exec (.readTemperature none) (wired .converting true (scratch85 0x1C))) =
      some ((0x0000000000014C0800, [.reset true, .sent 0xCC, .sent 0xBE, .received 0x50, .received 0x05,
        .received 0x4B, .received 0x46, .received 0x7F, .received 0xFF, .received 0x0C, .received 0x10,
        .received 0x1C]), .ready) := by decide +kernel

/-- K20. -/
theorem test_readTemperature_crcMismatch :
    seen (fun t => (t.rspWord, t.owState, t.scratchpad.toList))
        (exec (.readTemperature none) (wired .converting true (scratch85 0xC9))) =
      some (0x000000000000000003, .converting, scratch85 0xC9) := by decide +kernel

/-- L1: `0x33` goes 1 1 0 0 1 1 0 0. -/
theorem test_write_slots :
    (writeByteCode 0x33).filterMap (fun m =>
      match m with
      | .pad (.delay .w1l) => some true
      | .pad (.delay .w0l) => some false
      | _ => none) = [true, true, false, false, true, true, false, false] := by decide

/-- L3, L4: the delays of the default durations. -/
theorem test_durations :
    SlotTimes.default.legal ∧
    (runCode (writeBitCode true) { State.reset with seq := .busy .readAddress 0 }).waited = 70 ∧
    (runCode readBitCode { wired .ready true [] with seq := .busy .readAddress 0 }).waited = 70 ∧
    (runCode resetCode { wired .ready true [] with seq := .busy .readAddress 0 }).waited = 960 := by
  decide +kernel

/-- R5: the defaults of the OPEN parameters that have one. -/
theorem test_config_default :
    State.reset.cfg.edgeIrqSupported = true ∧ State.reset.cfg.syncStages = 2 := by decide

/-- R195, S10: 12, 11, 10 bits. -/
theorem test_conversion_interval :
    Config.conversionMicros 12 = 750000 ∧ Config.conversionMicros 11 = 375000 ∧
    Config.conversionMicros 10 = 187500 ∧ Config.conversionMicros 9 = 93750 := by decide

/-! ### The quadrature core -/

/-- Q41, Q47, Q42: the default, the largest and a negative precision. -/
theorem test_qConfigure_ok :
    seen (fun t => (t.rspWord, t.precision, t.encPuEn, t.abPrev)) (exec (.qConfigure 0) State.reset) =
      some (0, 4, true, 3) ∧
    seen (·.precision) (exec (.qConfigure 0x7FFFFFFF) State.reset) = some 0x7FFFFFFF ∧
    seen (·.precision) (exec (.qConfigure 0x80000000) State.reset) = some 4 := by decide

/-- Q48. -/
theorem test_qConfigure_unsupported :
    seen (fun t => (t.rspWord, t.precision, t.encPuEn, t.qState))
        (exec (.qConfigure 7)
          { State.reset with cfg := { Config.default with edgeIrqSupported := false } }) =
      some (5, 4, true, .failed) := by decide

/-- Q17, Q26, Q31. -/
theorem test_position_ready :
    seen (·.rspWord) (exec .position (turning (-5) 4)) = some 0x00000000FFFFFFFF00 ∧
    seen (·.rspWord) (exec .position (turning 0x80000000 1)) = some 0x000000008000000000 ∧
    seen (·.rspWord) (exec .position (turning (-7) 2)) = some 0x00000000FFFFFFFD00 := by decide

/-- P4 step 2, Q48. -/
theorem test_position_not_ready :
    seen (·.rspWord) (exec .position State.reset) = some 4 ∧
    seen (·.rspWord) (exec .position { State.reset with qState := .failed }) = some 5 := by decide

/-- Q33, Q36, Q38, Q40. -/
theorem test_setPosition_ready :
    seen (·.counter) (exec (.setPosition (-3)) (turning 0 4)) = some 0xFFFFFFF4 ∧
    seen (·.counter) (exec (.setPosition 536870912) (turning 0 4)) = some 0x80000000 ∧
    seen (·.counter) (exec (.setPosition 536870913) (turning 0 4)) = some 0x80000004 ∧
    seen (·.counter) (exec (.setPosition 0x80000000) (turning 0 3)) = some 0x80000000 := by decide

/-- Q48: refused with the counter kept. -/
theorem test_setPosition_failed :
    seen (fun t => (t.rspWord, t.counter))
        (exec (.setPosition 10) { turning 7 4 with qState := .failed }) = some (5, 7) := by decide

/-- Q2, Q3, Q9. -/
theorem test_edge_sequences :
    (fun t : State => (t.counter, t.oldAb))
        (edgeEvents [(true, false), (false, false), (false, true), (true, true)] State.reset) = (-4, 7) ∧
    (fun t : State => (t.counter, t.oldAb))
        (edgeEvents [(false, true), (false, false), (true, false), (true, true)] State.reset) = (4, 11) ∧
    (fun t : State => (t.counter, t.oldAb))
        (edgeEvents [(false, false), (false, true)] State.reset) = (-1, 1) := by decide

/-- Q13 and R304 (Q15): wrap, and the history kept at configure. -/
theorem test_edge_corners :
    (edgeEvent false true { State.reset with counter := 0x7FFFFFFF }).counter = 0x80000000 ∧
    (land (.pins false true)
      (startQConfigure 0 { State.reset with encA := false, encB := false })).counter = 1 := by decide

/-! ### Reserved opcodes (E3), through a step from reset -/

theorem test_reserved0 : seen answer (stepWord 0x00 State.reset) = some (5, []) := by decide

theorem test_reserved67 :
    seen answer (stepWord 0x06 State.reset) = some (5, []) ∧
    seen answer (stepWord 0x07 State.reset) = some (5, []) := by decide

theorem test_reservedB : seen answer (stepWord 0x0B State.reset) = some (5, []) := by decide

theorem test_reservedCF :
    seen answer (stepWord 0x0C State.reset) = some (5, []) ∧
    seen answer (stepWord 0x0F State.reset) = some (5, []) := by decide

/-! ### Steps -/

/-- `withFetchWord`: the very next step from reset runs the word (P3 step 1). -/
theorem test_withFetchWord :
    seen (fun t => (t.rspWord, t.rspValid, t.qState, t.cmds))
      (step (State.reset.withFetchWord 104 0x08)) = some (0, true, .ready, []) := by decide

/-- R90: no second command before the response is consumed; then it is accepted. -/
theorem test_response_then_next :
    seen (fun t => (t.rspValid, t.cmds.length))
      (step { State.reset with rspValid := true, cmds := [0x09] }) = some (false, 1) ∧
    seen (fun t => (t.rspValid, t.cmds.length))
      (step { State.reset with rspValid := true, rspReady := false, cmds := [0x09] }) = some (true, 1) := by
  decide

/-- P5 step 3a: an edge event inside a wire command. -/
theorem test_edge_inside_command :
    seen (fun t => (t.counter, t.oldAb, t.seq))
      (step { turning 0 1 with
        owState := .ready, seq := .busy .requestTemperature 5, events := [(0, .pins false true)] }) =
      some (1, 13, .busy .requestTemperature 5) := by decide

/-- R301: reset during a command. -/
theorem test_reset_inside_command :
    seen (fun t => (t.seq, t.dqOe, t.rspValid, t.owState))
      (step { State.reset with
        owState := .ready, seq := .busy .readAddress 1, dqOe := true, events := [(0, .rst false)] }) =
      some (.idle, false, false, .created) := by decide

/-! ### The pure functions -/

/-- V3, V4, V5, V8, V11, V12. -/
theorem test_crc8_vectors :
    crc8 [0x01] = 0x5E ∧ crc8 [0x80] = 0x8C ∧ crc8 [0xFF] = 0x35 ∧
    crc8 [1, 2, 3, 4, 5, 6, 7, 8] = 0x83 ∧ crc8 (List.replicate 7 0xFF) = 0x14 ∧
    crc8 (List.replicate 8 0xFF) = 0xC9 := by decide +kernel

/-- V14, V15, V16, V19, V20, V24. -/
theorem test_crc8_buffers :
    crc8 ((scratch85 0).take 8) = 0x1C ∧ crc8 (scratch85 0x1C) = 0 ∧ crc8 (scratch85 0xC9) = 0x68 ∧
    crc8 (rom1.toList.take 7) = 0x3F ∧ crc8 rom1.toList = 0 ∧
    crc8 [0x91, 0x01, 0xFF, 0x00, 0x1F, 0xFF, 0x0C, 0x10] = 0x4E := by decide +kernel

/-- T2, T9, T10, T12, T13, T14, T15, T22. -/
theorem test_decodeTemp :
    decodeTemp 0x01 0x00 = 62 ∧ decodeTemp 0x91 0x01 = 25062 ∧ decodeTemp 0x50 0x05 = 85000 ∧
    decodeTemp 0xFF 0x7F = 2047937 ∧ decodeTemp 0x00 0x80 = -2048000 ∧
    decodeTemp 0x90 0xFC = -55000 ∧ decodeTemp 0x6F 0xFE = -25062 ∧ decodeTemp 0xFF 0xFF = -62 := by
  decide

/-! ### Witnesses: a state and operands that meet the hypotheses of each statement -/

theorem witness_DecodeOfEncodeIsTheInstruction :
    (Instr.setResolution (some rom1) 0x80000000).wellFormed = true ∧ (Instr.reserved67 6).wellFormed = true ∧
    (Instr.reservedCF 0xF).wellFormed = true := by decide

/-- Words that differ in ignored bits only, for an opcode that reads nothing, one that reads `rom_id` as
`None`, and one that reads `arg`. -/
theorem witness_IgnoredBitsDoNotMatter :
    agreeOnReadFields 0x3F01823A1E64FF2812345678F2 0x02 = true ∧
    agreeOnReadFields 0x3F01823A1E64FF280000000004 0x04 = true ∧
    agreeOnReadFields 0x3F01823A1E64FF2800000000F8 0x08 = true := by decide

/-- Idle, ready, a word at the port. -/
def offered : State := { State.reset with cmds := [0x01, 0x02] }

theorem witness_StepRunsTheDecodedCommand :
    offered.rstN = true ∧ offered.events = [] ∧ offered.seq = .idle ∧ offered.rspValid = false ∧
    offered.cmds = 0x01 :: [0x02] := by decide

/-- A command in flight, at a released line, with an edge to come. -/
def inFlight : State :=
  { State.reset with
    owState := .ready, cmdOp := 2, seq := .busy .readAddress 0, events := [(1, .pins false true)] }

theorem witness_StepIsOneEngineStepWhileEventsPend :
    (∃ s : State, s.rstN = true ∧ s.events = (0 + 1, .rst false) :: [] ∧ s.seq = .idle ∧
      s.rspValid = false ∧ s.cmds = 0x02 :: []) ∧
    (inFlight.rstN = true ∧ inFlight.seq = .busy .readAddress 0 ∧ popDue inFlight = none ∧
      (inFlight.code .readAddress)[0]? = some (.pad .driveLow)) := by
  refine ⟨⟨{ State.reset with events := [(1, .rst false)], cmds := [0x02] }, ?_⟩, ?_⟩ <;> decide +kernel

theorem witness_DueEventLandsFirst :
    ({ inFlight with events := [(0, .present 9), (2, .rst false)] } : State).events =
      (0, .present 9) :: [(2, .rst false)] := by decide

/-- Not ready because Busy, and because a response is pending. -/
theorem witness_NoAcceptUnlessReady :
    (popDue inFlight = none ∧ inFlight.cmdReady = false ∧ ∃ t, step inFlight = .next t) ∧
    (∃ s t : State, s = { offered with rspValid := true } ∧ popDue s = none ∧ s.cmdReady = false ∧
      step s = .next t) := by
  refine ⟨⟨by decide, by decide, ⟨_, rfl⟩⟩, ⟨_, _, rfl, by decide, by decide, rfl⟩⟩

theorem witness_ResponseHeldUntilConsumed :
    ∀ r : Bool, ∃ s : State, s.rspReady = r ∧ s.rstN = true ∧ popDue s = none ∧ s.seq = .idle ∧
      s.rspValid = true :=
  fun r => ⟨{ offered with rspValid := true, rspReady := r }, rfl, rfl, rfl, rfl, rfl⟩

theorem witness_ResetAbandonsTheCommand :
    (∃ s : State, s.seq = .busy .readAddress 3 ∧ s.events = (0, .rst false) :: []) ∧
    (∃ s : State, s.rstN = false ∧ popDue s = none ∧ s.cmds = [0x01]) :=
  ⟨⟨{ inFlight with seq := .busy .readAddress 3, events := [(0, .rst false)] }, rfl, rfl⟩,
   ⟨{ State.reset with rstN := false, cmds := [0x01] }, rfl, rfl, rfl⟩⟩

/-- The invariant holds of a block with a command in flight. -/
theorem inFlight_inv : inFlight.Inv where
  precision_pos := by decide
  resolution_legal := by decide
  no_bus_error := by decide
  armed := by decide
  in_reset := by decide
  sequencer := ⟨by decide +kernel, by decide, rfl, rfl, by decide, rfl, by decide⟩

theorem witness_StepKeepsInvariant : inFlight.Inv ∧ ∃ t, step inFlight = .next t :=
  ⟨inFlight_inv, ⟨_, rfl⟩⟩

theorem witness_StepAlwaysHasNextState : inFlight.Inv := inFlight_inv

theorem witness_StepsOfACommandReachExecResult :
    (wired .ready true []).events = [] ∧ (wired .ready true []).rstN = true := by decide

theorem witness_EdgeEventInsideCommandEqualsAfter :
    isEncoderEvent (.pins false true) = true ∧ isEncoderEvent (.qEdge true true) = true ∧
    { inFlight with qState := .ready, abPrev := 3 }.seq = .busy .readAddress 0 := by decide

/-- A failure before the CRC check, and the two CRC failures. -/
theorem witness_FailedCommandLeavesBehind :
    (∃ t, exec (.requestTemperature none) (wired .ready false []) = .next t ∧
      t.rspStatus = .notConnected) ∧
    (∃ t, exec .readAddress (wired .ready true (List.replicate 8 0xFF)) = .next t ∧
      t.rspStatus = .crcMismatch) ∧
    (∃ t, exec (.readTemperature (some rom1)) (wired .ready true (scratch85 0xC9)) = .next t ∧
      t.rspStatus = .crcMismatch) :=
  ⟨⟨_, rfl, by decide +kernel⟩, ⟨_, rfl, by decide +kernel⟩, ⟨_, rfl, by decide +kernel⟩⟩

/-- A negative result. -/
theorem witness_UpperHalfOfResultIsZero :
    Instr.position ≠ .readAddress ∧
    ∃ t, exec .position (turning (-4) 4) = .next t ∧ t.rspData = 0xFFFFFFFF :=
  ⟨by decide, ⟨_, rfl, by decide⟩⟩

/-- Not configured, out of range on both sides, and a command that has no wire traffic. -/
theorem witness_CommandWithoutWireTakesOneStep :
    reachesWire .readAddress State.reset = false ∧
    reachesWire (.setResolution none 8) (wired .ready true []) = false ∧
    reachesWire (.setResolution (some rom1) 13) (wired .ready true []) = false ∧
    reachesWire (.setPosition 5) (turning 0 4) = false ∧
    (offered.rstN = true ∧ popDue offered = none ∧ offered.seq = .idle ∧ offered.rspValid = false ∧
      offered.cmds = 0x01 :: [0x02] ∧ reachesWire (decode 0x01) offered = false) := by decide

theorem witness_CoresDoNotTouchEachOther :
    (∃ t, exec (.requestTemperature none) (wired .ready true []) = .next t ∧
      isQuadrature (.requestTemperature none) = false) ∧
    (∃ t, exec (.setPosition 3) (turning 0 4) = .next t ∧ isQuadrature (.setPosition 3) = true) ∧
    (∃ t, exec (.reservedCF 0xC) inFlight = .next t ∧ isReserved (.reservedCF 0xC) = true) :=
  ⟨⟨_, rfl, rfl⟩, ⟨_, rfl, rfl⟩, ⟨_, rfl, rfl⟩⟩

/-- `SetResolution` out of range, and in range without a device; `SetPosition` before configure. -/
theorem witness_OnlyTheNamedCommandsWrite :
    (∃ t, exec (.setResolution none 13) (wired .ready true []) = .next t ∧ bitsInRange 13 = false) ∧
    (∃ t, exec (.setResolution none 9) (wired .ready false []) = .next t ∧ t.rspStatus ≠ .ok) ∧
    (∃ t, exec (.setPosition 3) State.reset = .next t ∧ t.rspStatus ≠ .ok) :=
  ⟨⟨_, rfl, rfl⟩, ⟨_, rfl, by decide +kernel⟩, ⟨_, rfl, by decide⟩⟩

theorem witness_PullUpClearedOnlyByReset :
    ∃ s t : State, s = { turning 0 4 with encPuEn := true, events := [(0, .rst false)] } ∧
      step s = .next t ∧ s.encPuEn = true ∧ t.encPuEn = false :=
  ⟨_, _, rfl, rfl, rfl, rfl⟩

/-- A reset block held in reset. -/
theorem witness_ResetValues : ({ State.reset with rstN := false } : State).Inv ∧
    ({ State.reset with rstN := false } : State).rstN = false :=
  ⟨{ precision_pos := by decide, resolution_legal := by decide, no_bus_error := by decide
     armed := by decide, in_reset := fun _ => rfl, sequencer := rfl }, rfl⟩

theorem witness_OwStateTransitions :
    checksOwState (.setResolution none 13) = true ∧ State.reset.owState = .created := by decide

/-- The opcode clauses of the four one-step results. -/
theorem witness_OwConfigureResult :
    CmdWord.op 0x01 = 0x1 ∧ CmdWord.op 0x08 = 0x8 ∧ CmdWord.op 0x09 = 0x9 ∧ CmdWord.op 0x0A = 0xA := by
  decide

theorem witness_OneWireCommandBeforeConfigure :
    checksOwState (.setResolution none 13) = true ∧ checksOwState .readAddress = true ∧
    checksOwState (.requestTemperature (some rom1)) = true ∧
    checksOwState (.readTemperature none) = true ∧ State.reset.owState = .created ∧
    (wired .converting true []).owState ≠ .created := by decide

theorem witness_MissingPresenceIsNotConnected :
    reachesWire (.setResolution none 9) (wired .ready false []) = true ∧
    reachesWire (.setResolution none 12) (wired .converting false []) = true ∧
    reachesWire .readAddress (wired .ready false []) = true ∧
    reachesWire (.requestTemperature none) (wired .ready false []) = true ∧
    reachesWire (.readTemperature (some rom1)) (wired .ready false []) = true ∧
    (wired .ready false []).nextPresence = false ∧ (wired .converting false []).nextPresence = false := by
  decide

/-- For `ReadAddressResult`: both ends occur. -/
theorem witness_ReadAddressResult :
    (wired .ready true rom1.toList).owState ≠ .created ∧
    (wired .ready true rom1.toList).nextPresence = true ∧ (wired .ready true rom1.toList).nextRom = rom1 ∧
    crc8 (rom1.toList.take 7) = rom1[7] ∧
    (wired .ready true (scratch85 0)).nextPresence = true ∧
    crc8 ((wired .ready true (scratch85 0)).nextRom.toList.take 7) ≠
      (wired .ready true (scratch85 0)).nextRom[7] := by decide +kernel

theorem witness_RequestTemperatureResult :
    (wired .converting true []).owState ≠ .created ∧ (wired .converting true []).nextPresence = true := by
  decide

/-- For `ReadTemperatureResult`: both ends occur. -/
theorem witness_ReadTemperatureResult :
    (wired .ready true (scratch85 0x1C)).owState ≠ .created ∧
    (wired .ready true (scratch85 0x1C)).nextPresence = true ∧
    (wired .converting true (scratch85 0xC9)).owState ≠ .created ∧
    (wired .converting true (scratch85 0xC9)).nextPresence = true ∧
    (wired .ready true (scratch85 0x1C)).nextScratchpad.toList = scratch85 0x1C ∧
    crc8 ((scratch85 0x1C).take 8) = 0x1C ∧ crc8 ((scratch85 0xC9).take 8) ≠ 0xC9 := by decide +kernel

/-- Below and above the range, at its edges and at the ends of the operand. -/
theorem witness_SetResolutionOutOfRange :
    (wired .ready true []).owState ≠ .created ∧ (8#32).toInt < 9 ∧ 12 < (13#32).toInt ∧
    (0x80000000#32).toInt < 9 ∧ 12 < (0x7FFFFFFF#32).toInt := by decide

/-- The two ends of the range. -/
theorem witness_SetResolutionResult :
    (wired .ready true []).owState ≠ .created ∧ (wired .ready true []).nextPresence = true ∧
    9 ≤ (9#32).toInt ∧ (9#32).toInt ≤ 12 ∧ 9 ≤ (12#32).toInt ∧ (12#32).toInt ≤ 12 := by decide

theorem witness_LineStuckLowAnswersOkZero :
    (wired .ready true (List.replicate 9 0)).owState ≠ .created ∧
    ∀ j < 73, levelAt (wired .ready true (List.replicate 9 0)).answers
      ((wired .ready true (List.replicate 9 0)).samples + j) = false := by decide +kernel

theorem witness_SilentDeviceIsCrcMismatch :
    (wired .ready true (List.replicate 9 0xFF)).owState ≠ .created ∧
    (wired .ready true (List.replicate 9 0xFF)).nextPresence = true ∧
    ∀ j < 72, levelAt (wired .ready true (List.replicate 9 0xFF)).answers
      ((wired .ready true (List.replicate 9 0xFF)).samples + 1 + j) = true := by decide +kernel

theorem witness_BytesGoLeastSignificantBitFirst : (0 : Nat) < 8 ∧ (7 : Nat) < 8 := by decide

theorem witness_CommandDurations :
    (wired .ready true []).cfg.times = SlotTimes.default ∧
    reachesWire (.readTemperature (some rom1)) (wired .ready true []) = true ∧
    reachesWire (.setResolution none 9) (wired .ready true []) = true ∧
    (wired .ready true []).nextPresence = true := by decide

/-- Both parameters, and operands on both sides of the default. -/
theorem witness_QConfigureResult :
    State.reset.cfg.edgeIrqSupported = true ∧
    (∃ s : State, s.cfg.edgeIrqSupported = false) ∧
    0 < (1#32).toInt ∧ ¬ 0 < (0#32).toInt :=
  ⟨rfl, ⟨{ State.reset with cfg := { Config.default with edgeIrqSupported := false } }, rfl⟩, by decide,
    by decide⟩

theorem witness_PositionResult :
    (turning 0x80000000 1).qState = .ready ∧ State.reset.qState = .created ∧
    ({ turning 1 1 with qState := .failed } : State).qState = .failed := by decide

theorem witness_SetPositionResult :
    (turning 0 4).qState = .ready ∧ State.reset.qState = .created ∧
    ({ turning 1 1 with qState := .failed } : State).qState = .failed := by decide

/-- Failed, with edge detection supported and not; a `Q.Configure` and another command. -/
theorem witness_FailedConfigureIsSticky :
    ({ turning 7 4 with qState := .failed } : State).qState = .failed ∧
    (turning 7 4).cfg.edgeIrqSupported = true ∧
    ({ Config.default with edgeIrqSupported := false } : Config).edgeIrqSupported = false ∧
    Instr.position ≠ .qConfigure 0 := by decide

/-- Another clock, another synchroniser and other durations, for a wire command and for `Q.Configure`. -/
theorem witness_OpenParametersDoNotMatter :
    (∀ p, Instr.readAddress = .qConfigure p → false = (wired .ready true []).cfg.edgeIrqSupported) ∧
    ({ Config.default with fClk := 48000000, syncStages := 3 } : Config).edgeIrqSupported =
      State.reset.cfg.edgeIrqSupported ∧
    ({ Config.default with fClk := 48000000, syncStages := 3 } : Config).times = State.reset.cfg.times ∧
    ({ Config.default with fClk := 48000000, syncStages := 3 } : Config) ≠ State.reset.cfg :=
  ⟨fun _ h => (by cases h), by decide, by decide, by decide⟩

theorem witness_EdgeEventResult : (turning 0x7FFFFFFF 4).qState = .ready := by decide

theorem witness_NoEdgeEventOutsideReady :
    isEncoderEvent (.pins false true) = true ∧ isEncoderEvent (.qEdge false true) = true ∧
    State.reset.qState ≠ .ready ∧ ({ turning 0 4 with qState := .failed } : State).qState ≠ .ready := by
  decide

theorem witness_PinChangeIsOneEdgeEvent :
    (turning 0 4).qState = .ready ∧ (turning 0 4).abPrev = (turning 0 4).abNow := by decide

/-- A whole turn each way, a bounce, and no sample at all. -/
theorem witness_CycleLaw :
    legalSamples 3 [(true, false), (false, false), (false, true), (true, true)] = true ∧
    lastSample 3 [(true, false), (false, false), (false, true), (true, true)] = 3 ∧
    netSteps 3 [(true, false), (false, false), (false, true), (true, true)] = 4 * 1 ∧
    legalSamples 3 [(false, true), (false, false), (true, false), (true, true)] = true ∧
    netSteps 3 [(false, true), (false, false), (true, false), (true, true)] = 4 * (-1) ∧
    legalSamples 3 [(true, false), (true, true)] = true ∧ lastSample 3 [] = 3 ∧
    State.reset.currentSample = 3 := by decide

theorem witness_BounceLaw :
    State.reset.currentSample = BitVec.ofBool true ++ BitVec.ofBool true ∧
    (true = true ↔ true ≠ false) ∧ (true = false ↔ true ≠ true) ∧ true ≠ false := by decide

/-- The largest and the smallest product that do not overflow (Q37). -/
theorem witness_PositionRoundTrip :
    (turning 0 4).qState = .ready ∧ 1 ≤ (turning 0 4).precision.toInt ∧
    -2 ^ 31 ≤ (0xE0000000#32).toInt * (turning 0 4).precision.toInt ∧
    (0x1FFFFFFF#32).toInt * (turning 0 4).precision.toInt ≤ 2 ^ 31 - 1 ∧
    1 ≤ (turning 0 1).precision.toInt ∧
    (0x7FFFFFFF#32).toInt * (turning 0 1).precision.toInt ≤ 2 ^ 31 - 1 := by decide

theorem witness_SetPositionOverwritesEarlierEdges : (turning 5 4).qState = .ready := by decide

theorem witness_ReservedOpcodeResult :
    isReserved .reserved0 = true ∧ isReserved (.reserved67 7) = true ∧ isReserved .reservedB = true ∧
    isReserved (.reservedCF 0xF) = true ∧ State.reset.seq = .idle ∧ State.reset.dqOe = false ∧
    (∃ s : State, s.rstN = true ∧ popDue s = none ∧ s.seq = .idle ∧ s.dqOe = false ∧
      s.rspValid = false ∧ s.cmds = 0x0F :: [] ∧ isReserved (decode 0x0F) = true) :=
  ⟨rfl, rfl, rfl, rfl, rfl, rfl, ⟨{ State.reset with cmds := [0x0F] }, by decide⟩⟩

/-- For the configuration byte: the ends of the range. -/
theorem witness_ConfigurationBytes :
    9 ≤ (9#32).toInt ∧ (9#32).toInt ≤ 12 ∧ 9 ≤ (12#32).toInt ∧ (12#32).toInt ≤ 12 := by decide

/-- The first bit of the first byte and the last bit of the last. -/
theorem witness_CrcDetectsEverySingleBitFlip :
    0 < (scratch85 0x1C).length ∧ 8 < (scratch85 0x1C).length ∧ (0 : Nat) < 8 ∧ (7 : Nat) < 8 := by decide

/-- Each clause with a hypothesis: neighbours (across 0 as well), opposites, order in each half and across
the sign, even, odd positive and odd negative. -/
theorem witness_DecodeTempProperties :
    (0x7F#8 ++ 0xFF#8).toInt = (0x7F#8 ++ 0xFE#8).toInt + 1 ∧
    (0x00#8 ++ 0x00#8).toInt = (0xFF#8 ++ 0xFF#8).toInt + 1 ∧
    (0xFE#8 ++ 0x6F#8).toInt = -(0x01#8 ++ 0x91#8).toInt ∧
    ((0x00#8 ++ 0x00#8).toNat < (0x7F#8 ++ 0xFF#8).toNat ∧ (0x7F#8 ++ 0xFF#8).toNat < 0x8000) ∧
    ((0x80#8 ++ 0x00#8).toNat < (0xFF#8 ++ 0xFF#8).toNat ∧ 0x8000 ≤ (0x80#8 ++ 0x00#8).toNat) ∧
    ((0x7F#8 ++ 0xFF#8).toNat < 0x8000 ∧ 0x8000 ≤ (0x80#8 ++ 0x00#8).toNat) ∧
    (0x80#8 ++ 0x00#8).toInt % 2 = 0 ∧
    ((0x7F#8 ++ 0xFF#8).toInt % 2 = 1 ∧ 0 < (0x7F#8 ++ 0xFF#8).toInt) ∧
    ((0xFF#8 ++ 0xFF#8).toInt % 2 = 1 ∧ (0xFF#8 ++ 0xFF#8).toInt < 0) := by decide

end Sys2Proof.Tests
end

/-! PROOF. The family 00_scope: the block never stops (O15), and the OPEN parameters (O60). -/

namespace Sys2Proof.Machine

/-! ### Where a step has a next state -/

/-- Counting down to the next outside event leaves the code of the command in flight. -/
@[simp] theorem tick_code (s : State) (op : WireCmd) : (tick s).code op = s.code op := by
  simp [State.code]

/-- The OW engine moves from every position its command has. -/
theorem engineStep_eq_next {s : State} {op : WireCmd} {k : Nat} (hk : k < (s.code op).length) :
    engineStep op k s = .next (microStep (s.code op)[k] s) := by
  simp [engineStep, hk]

/-- The command port moves in every state, for every word presented. -/
theorem portStep_has_next (s : State) : ∃ t, portStep s = .next t := by
  unfold portStep
  cases s.rspValid with
  | true => cases s.rspReady <;> exact ⟨_, rfl⟩
  | false =>
    cases s.cmds with
    | nil => exact ⟨_, rfl⟩
    | cons w rest =>
      cases s.events with
      | nil => exact ⟨_, exec_eq_runOut (decode w) (accept w rest s)⟩
      | cons p es => exact ⟨_, rfl⟩

/-- The block moves unless the sequencer names a position its command does not have. -/
theorem blockStep_has_next {s : State} (hpos : ∀ op k, s.seq = .busy op k → k < (s.code op).length) :
    ∃ t, blockStep s = .next t := by
  unfold blockStep
  cases s.rstN with
  | false => exact ⟨_, rfl⟩
  | true =>
    cases hq : s.seq with
    | idle => exact portStep_has_next s
    | busy op k =>
      have hk : k < ((tick s).code op).length := by simpa using hpos op k hq
      exact ⟨_, engineStep_eq_next hk⟩

/-- The same of the whole machine, since an outside event always lands. -/
theorem step_has_next {s : State} (hpos : ∀ op k, s.seq = .busy op k → k < (s.code op).length) :
    ∃ t, step s = .next t := by
  unfold step
  cases popDue s with
  | some p => exact ⟨_, rfl⟩
  | none => exact blockStep_has_next hpos

/-- In the invariant the position of the command in flight is one its command has (10_state R30). -/
theorem State.Inv.position_lt {s : State} (hs : s.Inv) {op : WireCmd} {k : Nat}
    (hq : s.seq = .busy op k) : k < (s.code op).length := by
  have hseq := hs.sequencer
  rw [State.seqInv, hq] at hseq
  exact hseq.1

/-! ### The first step of a command under another configuration (00_scope R5) -/

/-- Another configuration before an operation is that configuration after it: the operation reads no
parameter and writes none. -/
def IgnoresCfg (f : State → State) : Prop :=
  ∀ (s : State) (c : Config), f { s with cfg := c } = { f s with cfg := c }

theorem IgnoresCfg.comp {f g : State → State} (hf : IgnoresCfg f) (hg : IgnoresCfg g) :
    IgnoresCfg (fun s => f (g s)) := by
  intro s c
  simp only [hg s c, hf (g s) c]

theorem latchRomId_ignoresCfg (rid : Option RomId) : IgnoresCfg (latchRomId rid) := by
  intro s c
  cases rid <;> rfl

theorem whenConfigured_ignoresCfg {go : State → State} (hgo : IgnoresCfg go) :
    IgnoresCfg (whenConfigured go) := by
  intro s c
  simp only [whenConfigured]
  split
  · rfl
  · exact hgo s c

theorem whenArmed_ignoresCfg {go : State → State} (hgo : IgnoresCfg go) : IgnoresCfg (whenArmed go) := by
  intro s c
  simp only [whenArmed]
  split
  · rfl
  · rfl
  · exact hgo s c

theorem startSetResolution_ignoresCfg (rid : Option RomId) (bits : Word) :
    IgnoresCfg (startSetResolution rid bits) := by
  have hrange : IgnoresCfg fun s => if bitsInRange bits then enter .setResolution s else complete 0 s := by
    intro s c
    cases bitsInRange bits <;> rfl
  have hlatch : IgnoresCfg (latchArg bits) := fun _ _ => rfl
  exact (whenConfigured_ignoresCfg hrange).comp (hlatch.comp (latchRomId_ignoresCfg rid))

/-- `Q.Configure` reads whether edge detection is supported, and no other parameter (41_quadrature R164). -/
theorem startQConfigure_withCfg (p : Word) {s : State} {c : Config}
    (hedge : c.edgeIrqSupported = s.cfg.edgeIrqSupported) :
    startQConfigure p { s with cfg := c } = { startQConfigure p s with cfg := c } := by
  simp only [startQConfigure, hedge]
  split <;> rfl

/-- The first step of a command under another configuration, for `Q.Configure` one with the same edge
detection. -/
theorem beginInstr_withCfg (i : Instr) (s : State) (c : Config)
    (hedge : ∀ p, i = .qConfigure p → c.edgeIrqSupported = s.cfg.edgeIrqSupported) :
    beginInstr i { s with cfg := c } = { beginInstr i s with cfg := c } := by
  have henter (op : WireCmd) : IgnoresCfg (whenConfigured (enter op)) :=
    whenConfigured_ignoresCfg fun _ _ => rfl
  cases i with
  | readAddress => exact henter .readAddress s c
  | setResolution rid bits => exact startSetResolution_ignoresCfg rid bits s c
  | requestTemperature rid => exact (henter .requestTemperature).comp (latchRomId_ignoresCfg rid) s c
  | readTemperature rid => exact (henter .readTemperature).comp (latchRomId_ignoresCfg rid) s c
  | qConfigure p => exact startQConfigure_withCfg p (hedge p rfl)
  | position =>
    have hread : IgnoresCfg fun s => complete (data32 (positionOf s.counter s.precision)) s :=
      fun _ _ => rfl
    exact whenArmed_ignoresCfg hread s c
  | setPosition v =>
    have hwrite : IgnoresCfg fun s => complete 0 { s with counter := v * s.precision } := fun _ _ => rfl
    exact whenArmed_ignoresCfg hwrite s c
  | owConfigure | reserved0 | reserved67 op | reservedB | reservedCF op => rfl

/-- The first step of a command leaves the parameters: `beginInstr_withCfg` at the configuration the state
has. -/
theorem beginInstr_cfg (i : Instr) (s : State) : (beginInstr i s).cfg = s.cfg := by
  have h : beginInstr i s = { beginInstr i s with cfg := s.cfg } :=
    beginInstr_withCfg i s s.cfg fun _ _ => rfl
  rw [h]

/-! ### The statements -/

/-- Settles O15: the one fault is a position past the end of a command, which the invariant shuts out. -/
theorem stepAlwaysHasNextState : Obligations.StepAlwaysHasNextState :=
  fun _ hs => step_has_next fun _ _ => hs.position_lt

/-- Settles O60: the first step of a command reads no parameter but the edge detection of `Q.Configure`,
and the rest of its code reads the durations only, for the time spent. -/
theorem openParametersDoNotMatter : Obligations.OpenParametersDoNotMatter := by
  intro i s c hedge
  obtain ⟨w, hrun, hw⟩ := runOut_withCfg (beginInstr i s) c (beginInstr i s).waited
  refine ⟨runOut (beginInstr i s), w, exec_eq_runOut i s, ?_, fun htimes => ?_⟩
  · rw [exec_eq_runOut, beginInstr_withCfg i s c hedge]
    exact congrArg Host.Outcome.next hrun
  · exact hw (by rw [beginInstr_cfg, htimes]) rfl

end Sys2Proof.Machine

/-! PROOF. The family 10_state: the invariant is kept by every step (O14), and holds at reset (O11, O13); how a
command is taken by the machine (O7, O10, O16, O22); who writes which register (O25, O26). -/

namespace Sys2Proof.Machine

/-! ### What the code of a wire command is made of -/

/-- A micro-operation that ends the command with OK. -/
def Micro.completes : Micro → Bool
  | .completeZero | .completeRom | .completeTemp => true
  | _ => false

/-- Whether the command `op` may contain the micro-operation: each register of the one-wire core has the
command that writes it (10_state R26 to R29). -/
def Micro.allowedIn (op : WireCmd) : Micro → Bool
  | .storeRom _ => op == .readAddress
  | .storeScratch _ => op == .readTemperature
  | .keepResolution => op == .setResolution
  | .setOwState st => st != .created
  | _ => true

/-- Part of the code of `op` before its end: nothing completes, every write is one `op` may make, and the line,
released before it, is released after it (10_state R35). -/
structure IsBody (op : WireCmd) (ms : List Micro) : Prop where
  allowed : ∀ m ∈ ms, m.allowedIn op = true ∧ m.completes = false
  released : lineAfter ms = false

theorem lineAfter_append_of_released {ms : List Micro} (h : lineAfter ms = false) (ms' : List Micro) :
    lineAfter (ms ++ ms') = lineAfter ms' := by
  unfold lineAfter at h ⊢
  rw [List.foldl_append, h]

section
variable {op : WireCmd}

theorem IsBody.nil : IsBody op [] := ⟨by simp, rfl⟩

theorem IsBody.append {ms ms' : List Micro} (h : IsBody op ms) (h' : IsBody op ms') :
    IsBody op (ms ++ ms') where
  allowed := fun m hm => (List.mem_append.1 hm).elim (h.allowed m) (h'.allowed m)
  released := (lineAfter_append_of_released h.released ms').trans h'.released

theorem IsBody.flatMap {α : Type} {f : α → List Micro} (h : ∀ a, IsBody op (f a)) (as : List α) :
    IsBody op (as.flatMap f) := by
  induction as with
  | nil => exact IsBody.nil
  | cons a as ih => rw [List.flatMap_cons]; exact (h a).append ih

theorem beginCode_isBody : IsBody op beginCode := ⟨by cases op <;> decide, by decide⟩

theorem writeBytesCode_isBody (bs : List Byte) : IsBody op (writeBytesCode bs) := by
  have hbit (b : Bool) : IsBody op (writeBitCode b) := by
    cases b <;> exact ⟨by cases op <;> decide, by decide⟩
  have hsent (b : Byte) : IsBody op [.sent b] := ⟨by simp [Micro.allowedIn, Micro.completes], rfl⟩
  exact IsBody.flatMap (fun b => (IsBody.flatMap (fun i => hbit (b.getLsbD i)) _).append (hsent b)) bs

theorem readByteCode_isBody : IsBody op readByteCode := ⟨by cases op <;> decide, by decide⟩

theorem readRomCode_isBody : IsBody .readAddress readRomCode :=
  IsBody.flatMap (fun i => readByteCode_isBody.append
    ⟨by simp [Micro.allowedIn, Micro.completes], rfl⟩) _

theorem readScratchCode_isBody : IsBody .readTemperature readScratchCode :=
  IsBody.flatMap (fun i => readByteCode_isBody.append
    ⟨by simp [Micro.allowedIn, Micro.completes], rfl⟩) _

end

/-- The code of a wire command is a body and then the one micro-operation that completes it. -/
theorem commandCode_eq_body (op : WireCmd) (rp : Bool) (rom : RomId) (arg : Word) :
    ∃ body last, commandCode op rp rom arg = body ++ [last] ∧ IsBody op body ∧
      last.allowedIn op = true ∧ last.completes = true := by
  cases op with
  | readAddress =>
    exact ⟨beginCode ++ writeBytesCode [0x33] ++ readRomCode ++ [.checkRom], .completeRom,
      by simp [commandCode],
      ((beginCode_isBody.append (writeBytesCode_isBody _)).append readRomCode_isBody).append
        ⟨by decide, rfl⟩, rfl, rfl⟩
  | setResolution =>
    exact ⟨beginCode ++ selectCode rp rom ++ writeBytesCode [0x4E, 0xFF, 0x00, configByte arg] ++
        [.keepResolution], .completeZero,
      by simp [commandCode],
      ((beginCode_isBody.append (writeBytesCode_isBody _)).append (writeBytesCode_isBody _)).append
        ⟨by decide, rfl⟩, rfl, rfl⟩
  | requestTemperature =>
    exact ⟨beginCode ++ selectCode rp rom ++ writeBytesCode [0x44] ++ [.setOwState .converting],
      .completeZero,
      by simp [commandCode],
      ((beginCode_isBody.append (writeBytesCode_isBody _)).append (writeBytesCode_isBody _)).append
        ⟨by decide, rfl⟩, rfl, rfl⟩
  | readTemperature =>
    exact ⟨beginCode ++ selectCode rp rom ++ writeBytesCode [0xBE] ++ readScratchCode ++
        [.checkScratch, .setOwState .ready], .completeTemp,
      by simp [commandCode],
      (((beginCode_isBody.append (writeBytesCode_isBody _)).append (writeBytesCode_isBody _)).append
        readScratchCode_isBody).append ⟨by decide, rfl⟩, rfl, rfl⟩

theorem code_length_pos (s : State) (op : WireCmd) : 0 < (s.code op).length := by
  obtain ⟨body, last, hcode, -⟩ := commandCode_eq_body op s.cmdRp s.cmdRom s.cmdArg
  simp [State.code, hcode]

/-- The micro-operation at a position of a command: one the command may contain, and either its last, with the
line released before it, or one with a position after it. -/
theorem code_position {s : State} {op : WireCmd} {k : Nat} {m : Micro} (hm : (s.code op)[k]? = some m) :
    m.allowedIn op = true ∧
      (m.completes = true ∧ lineAfter ((s.code op).take k) = false ∨
       m.completes = false ∧ k + 1 < (s.code op).length) := by
  obtain ⟨body, last, hcode, hbody, hallowed, hlast⟩ := commandCode_eq_body op s.cmdRp s.cmdRom s.cmdArg
  have hcode : s.code op = body ++ [last] := hcode
  rw [hcode] at hm ⊢
  by_cases hk : k < body.length
  · rw [List.getElem?_append_left hk] at hm
    obtain ⟨hin, hnot⟩ := hbody.allowed m (List.mem_of_getElem? hm)
    exact ⟨hin, .inr ⟨hnot, by simpa using hk⟩⟩
  · obtain ⟨hlt, hget⟩ := List.getElem?_eq_some_iff.1 hm
    have hk : k = body.length := by
      rw [List.length_append, List.length_singleton] at hlt; omega
    subst hk
    rw [List.getElem_concat_length rfl] at hget
    subst hget
    exact ⟨hallowed, .inl ⟨hlast, by rw [List.take_left]; exact hbody.released⟩⟩

/-! ### What one step of the OW engine can do to the invariant's fields -/

@[simp] theorem microStep_encPuEn (m : Micro) (s : State) : (microStep m s).encPuEn = s.encPuEn := by
  rw [microStep_frame]

/-- A step of the OW engine completes the command, raises an error that is not `BusError`, or moves to the next
position with the response register left and the line as its pad action says. -/
theorem microStep_cases (m : Micro) (s : State) :
    (m.completes = true ∧ ∃ d, microStep m s = complete d s) ∨
    (∃ k, k ≠ .busError ∧ microStep m s = raise k s) ∨
    (m.completes = false ∧ (microStep m s).seq = s.seq.bump 1 ∧
      (microStep m s).rspValid = s.rspValid ∧ (microStep m s).rspStatus = s.rspStatus ∧
      ∀ ms, s.dqOe = lineAfter ms → (microStep m s).dqOe = lineAfter (ms ++ [m])) := by
  cases m with
  | completeZero | completeRom | completeTemp => exact .inl ⟨rfl, _, rfl⟩
  | needPresence =>
    cases hp : s.presence with
    | true => right; right; simp [microStep, hp, Micro.completes, lineAfter]
    | false => right; left; exact ⟨.notConnected, by decide, by simp [microStep, hp]⟩
  | checkRom =>
    cases hp : romValid s.romBuf with
    | true => right; right; simp [microStep, hp, Micro.completes, lineAfter]
    | false => right; left; exact ⟨.crcMismatch, by decide, by simp [microStep, hp]⟩
  | checkScratch =>
    cases hp : scratchpadValid s.scratchpad with
    | true => right; right; simp [microStep, hp, Micro.completes, lineAfter]
    | false => right; left; exact ⟨.crcMismatch, by decide, by simp [microStep, hp]⟩
  | pad a => cases a <;> right <;> right <;> simp [microStep, padStep, Micro.completes, lineAfter]
  | _ => right; right; simp [microStep, Micro.completes, lineAfter]

/-- The registers a step of the OW engine writes, by the command it belongs to (10_state R26 to R29). -/
theorem microStep_registers {m : Micro} {op : WireCmd} (hm : m.allowedIn op = true) (s : State) :
    (op ≠ .readTemperature → (microStep m s).scratchpad = s.scratchpad) ∧
    (op ≠ .readAddress → (microStep m s).romBuf = s.romBuf) ∧
    ((microStep m s).resolution = s.resolution ∨
      op = .setResolution ∧ (microStep m s).resolution = s.cmdArg.setWidth 4) ∧
    ((microStep m s).owState = s.owState ∨ (microStep m s).owState ≠ .created) := by
  cases m with
  | storeRom i | storeScratch i | keepResolution | setOwState st =>
    simp_all [Micro.allowedIn, microStep]
  | pad a => cases a <;> simp [microStep, padStep]
  | needPresence | checkRom | checkScratch => simp only [microStep]; split <;> simp
  | _ => simp [microStep]

/-! ### The command in flight, run to its end -/

@[simp] theorem runOut_of_idle {s : State} (h : s.seq = .idle) : runOut s = s := by
  simp [runOut, h]

/-- What holds of a state with the command `op` in flight and is kept by every step of `op` holds at its end. -/
theorem runOut_induction {P : State → Prop} {op : WireCmd}
    (hstep : ∀ u k m, u.seq = .busy op k → (u.code op)[k]? = some m → P u → P (microStep m u))
    {s : State} {k : Nat} (hq : s.seq = .busy op k) (hs : P s) : P (runOut s) := by
  cases hm : (s.code op)[k]? with
  | none =>
    have hend : (s.code op).drop k = [] := List.drop_eq_nil_of_le (List.getElem?_eq_none_iff.1 hm)
    simpa [runOut, hq, hend, runCode] using hs
  | some m =>
    have hk : k < (s.code op).length := (List.getElem?_eq_some_iff.1 hm).1
    rw [runOut_microStep hq hm]
    rcases microStep_seq m s with hidle | hnext
    · rw [runOut_of_idle hidle]
      exact hstep s k m hq hm hs
    · exact runOut_induction hstep (hnext.trans (congrArg (Seq.bump 1) hq)) (hstep s k m hq hm hs)
  termination_by (s.code op).length - k
  decreasing_by simp only [microStep_code]; omega

/-- The same of a property every step of the OW engine keeps, whether or not a command is in flight. -/
theorem runOut_keeps {P : State → Prop} (hstep : ∀ m u, P u → P (microStep m u)) {s : State} (hs : P s) :
    P (runOut s) := by
  cases hq : s.seq with
  | idle => rwa [runOut_of_idle hq]
  | busy op k => exact runOut_induction (fun u _ m _ _ hu => hstep m u hu) hq hs

/-- No step of the OW engine writes the quadrature core (20_memory R74). -/
theorem runOut_quadrature (s : State) :
    (runOut s).oldAb = s.oldAb ∧ (runOut s).counter = s.counter ∧ (runOut s).precision = s.precision ∧
    (runOut s).qState = s.qState ∧ (runOut s).encPuEn = s.encPuEn ∧ (runOut s).abPrev = s.abPrev :=
  runOut_keeps
    (P := fun u => u.oldAb = s.oldAb ∧ u.counter = s.counter ∧ u.precision = s.precision ∧
      u.qState = s.qState ∧ u.encPuEn = s.encPuEn ∧ u.abPrev = s.abPrev)
    (by simp) ⟨rfl, rfl, rfl, rfl, rfl, rfl⟩

/-- The registers a wire command leaves (10_state R27 to R29). -/
theorem runOut_registers {s : State} {op : WireCmd} {k : Nat} (hq : s.seq = .busy op k) :
    (op ≠ .readTemperature → (runOut s).scratchpad = s.scratchpad) ∧
    (op ≠ .readAddress → (runOut s).romBuf = s.romBuf) ∧
    (op ≠ .setResolution → (runOut s).resolution = s.resolution) := by
  refine runOut_induction (P := fun u => (op ≠ .readTemperature → u.scratchpad = s.scratchpad) ∧
    (op ≠ .readAddress → u.romBuf = s.romBuf) ∧ (op ≠ .setResolution → u.resolution = s.resolution))
    ?_ hq ⟨fun _ => rfl, fun _ => rfl, fun _ => rfl⟩
  rintro u k m - hm ⟨hscratch, hrom, hres⟩
  obtain ⟨hscratch', hrom', hres', -⟩ := microStep_registers (code_position hm).1 u
  refine ⟨fun h => (hscratch' h).trans (hscratch h), fun h => (hrom' h).trans (hrom h), fun h => ?_⟩
  exact (hres'.resolve_right fun hset => h hset.1).trans (hres h)

/-! ### The first step of a command -/

/-- The wire command an instruction is, if it is one (10_state R31). -/
def wireCmdOf : Instr → Option WireCmd
  | .readAddress => some .readAddress
  | .setResolution _ _ => some .setResolution
  | .requestTemperature _ => some .requestTemperature
  | .readTemperature _ => some .readTemperature
  | _ => none

/-- What the first step of a command writes: the quadrature registers but the history, `ow_state`, the latched
operands, the response, the sequencer and the line; everything else it leaves. -/
theorem beginInstr_frame (i : Instr) (s : State) :
    beginInstr i s =
      { s with
        counter := (beginInstr i s).counter, precision := (beginInstr i s).precision
        qState := (beginInstr i s).qState, abPrev := (beginInstr i s).abPrev
        encPuEn := (beginInstr i s).encPuEn, owState := (beginInstr i s).owState
        seq := (beginInstr i s).seq, cmdRp := (beginInstr i s).cmdRp, cmdArg := (beginInstr i s).cmdArg
        cmdRom := (beginInstr i s).cmdRom, rspValid := (beginInstr i s).rspValid
        rspStatus := (beginInstr i s).rspStatus, rspData := (beginInstr i s).rspData
        dqOe := (beginInstr i s).dqOe } := by
  cases i with
  | setResolution rid bits =>
    cases rid <;> simp only [beginInstr, startSetResolution, whenConfigured] <;> (repeat' split) <;> rfl
  | requestTemperature rid =>
    cases rid <;> simp only [beginInstr, startRequestTemperature, whenConfigured] <;> split <;> rfl
  | readTemperature rid =>
    cases rid <;> simp only [beginInstr, startReadTemperature, whenConfigured] <;> split <;> rfl
  | readAddress => simp only [beginInstr, startReadAddress, whenConfigured]; split <;> rfl
  | qConfigure p => simp only [beginInstr, startQConfigure]; split <;> rfl
  | position => simp only [beginInstr, startPosition, whenArmed]; split <;> rfl
  | setPosition v => simp only [beginInstr, startSetPosition, whenArmed]; split <;> rfl
  | owConfigure | reserved0 | reserved67 op | reservedB | reservedCF op => rfl

section
variable (i : Instr) (s : State)

@[simp] theorem beginInstr_oldAb : (beginInstr i s).oldAb = s.oldAb := by rw [beginInstr_frame]
@[simp] theorem beginInstr_scratchpad : (beginInstr i s).scratchpad = s.scratchpad := by
  rw [beginInstr_frame]
@[simp] theorem beginInstr_romBuf : (beginInstr i s).romBuf = s.romBuf := by rw [beginInstr_frame]
@[simp] theorem beginInstr_resolution : (beginInstr i s).resolution = s.resolution := by
  rw [beginInstr_frame]
@[simp] theorem beginInstr_cmdOp : (beginInstr i s).cmdOp = s.cmdOp := by rw [beginInstr_frame]
@[simp] theorem beginInstr_rstN : (beginInstr i s).rstN = s.rstN := by rw [beginInstr_frame]
@[simp] theorem beginInstr_events : (beginInstr i s).events = s.events := by rw [beginInstr_frame]
@[simp] theorem beginInstr_abNow : (beginInstr i s).abNow = s.abNow := by
  unfold State.abNow; rw [beginInstr_frame]

end

/-- The first step of a command leaves the rest of the wire command to do: it entered it at the first position,
in a state that passed its checks (42_ds18b20 R193, R199). -/
theorem beginInstr_busy {i : Instr} {s : State} {op : WireCmd} {k : Nat}
    (hq : (beginInstr i s).seq = .busy op k) :
    wireCmdOf i = some op ∧ k = 0 ∧ s.owState ≠ .created ∧
    (beginInstr i s).owState = s.owState ∧ (beginInstr i s).dqOe = s.dqOe ∧
    (beginInstr i s).rspValid = s.rspValid ∧
    (op = .setResolution → bitsInRange (beginInstr i s).cmdArg = true) := by
  rcases beginInstr_cases i s with ⟨hidle, -⟩ | ⟨how, hcase⟩
  · rw [hidle] at hq; cases hq
  · rcases hcase with ⟨rfl, he⟩ | ⟨rid, bits, rfl, hb, he⟩ | ⟨rid, rfl, he⟩ | ⟨rid, rfl, he⟩
    all_goals
      rw [he] at hq ⊢
      cases hq
      simp_all [wireCmdOf]

/-- The first step of a command, register by register: only `Q.Configure` writes the quadrature set-up, only a
`SetPosition` that ends OK the counter; no command answers `BusError` or pulls the line low before it is on the
wire (10_state R22 to R25, R35, R36; 60_exceptions R263). -/
theorem beginInstr_registers (i : Instr) (s : State) :
    ((∀ p, i ≠ .qConfigure p) →
      (beginInstr i s).precision = s.precision ∧ (beginInstr i s).qState = s.qState ∧
      (beginInstr i s).encPuEn = s.encPuEn ∧ (beginInstr i s).abPrev = s.abPrev) ∧
    ((∀ v, i = .setPosition v → (beginInstr i s).rspStatus ≠ .ok) → (beginInstr i s).counter = s.counter) ∧
    (s.rspStatus ≠ .busError → (beginInstr i s).rspStatus ≠ .busError) ∧
    (s.dqOe = false → (beginInstr i s).dqOe = false) := by
  cases i with
  | setResolution rid bits =>
    simp only [beginInstr, startSetResolution, whenConfigured]; (repeat' split) <;> simp
  | requestTemperature rid =>
    simp only [beginInstr, startRequestTemperature, whenConfigured]; split <;> simp
  | readTemperature rid => simp only [beginInstr, startReadTemperature, whenConfigured]; split <;> simp
  | readAddress => simp only [beginInstr, startReadAddress, whenConfigured]; split <;> simp
  | qConfigure p => simp only [beginInstr, startQConfigure]; split <;> simp
  | position => simp only [beginInstr, startPosition, whenArmed]; split <;> simp
  | setPosition v => simp only [beginInstr, startSetPosition, whenArmed]; split <;> simp
  | owConfigure | reserved0 | reserved67 op | reservedB | reservedCF op =>
    simp [beginInstr, startOwConfigure, reservedOpcode]

theorem effectivePrecision_pos (p : Word) : 1 ≤ (effectivePrecision p).toInt := by
  unfold effectivePrecision
  split
  · decide
  · omega

/-- `Q.Configure`, supported or not: the pull-up set, a precision that is positive if it was, and the detector
armed on the present levels if the core is Ready (41_quadrature R162, R164). -/
theorem startQConfigure_registers (p : Word) (s : State) :
    (startQConfigure p s).encPuEn = true ∧
    (1 ≤ s.precision.toInt → 1 ≤ (startQConfigure p s).precision.toInt) ∧
    ((startQConfigure p s).qState = .ready → (startQConfigure p s).abPrev = s.abNow) := by
  unfold startQConfigure
  split
  · exact ⟨rfl, fun _ => effectivePrecision_pos p, fun _ => rfl⟩
  · simp

/-- No command clears the pull-up enable (10_state R36). -/
theorem beginInstr_encPuEn {s : State} (h : s.encPuEn = true) (i : Instr) :
    (beginInstr i s).encPuEn = true := by
  by_cases hi : ∃ p, i = .qConfigure p
  · obtain ⟨p, rfl⟩ := hi
    exact (startQConfigure_registers p s).1
  · obtain ⟨-, -, hpu, -⟩ := (beginInstr_registers i s).1 fun p hp => hi ⟨p, hp⟩
    exact hpu.trans h

/-- A command that does not reach the wire is done by its first step (10_state R31). -/
theorem beginInstr_idle_of_not_reachesWire {i : Instr} {s : State} (h : reachesWire i s = false) :
    (beginInstr i s).seq = .idle ∧ (beginInstr i s).rspValid = true := by
  rcases beginInstr_cases i s with hdone | ⟨how, hcase⟩
  · exact hdone
  · rcases hcase with ⟨rfl, -⟩ | ⟨rid, bits, rfl, hb, -⟩ | ⟨rid, rfl, -⟩ | ⟨rid, rfl, -⟩ <;>
      simp_all [reachesWire, checksOwState]

/-! ### The invariant: its parts -/

theorem seqInv_of_idle {s : State} (hq : s.seq = .idle) : s.seqInv ↔ s.dqOe = false := by
  unfold State.seqInv; rw [hq]

theorem seqInv_of_busy {s : State} {op : WireCmd} {k : Nat} (hq : s.seq = .busy op k) :
    s.seqInv ↔
      k < (s.code op).length ∧ s.dqOe = lineAfter ((s.code op).take k) ∧ s.rspValid = false ∧
      s.cmdOp = op.opcode ∧ s.owState ≠ .created ∧ s.rstN = true ∧
      (op = .setResolution → bitsInRange s.cmdArg = true) := by
  unfold State.seqInv; rw [hq]

/-- What `SetResolution` keeps of an operand in range is in range (10_state R40, 42_ds18b20 R193). -/
theorem resolution_legal_of_bitsInRange {b : Word} (h : bitsInRange b = true) :
    9 ≤ (b.setWidth 4).toNat ∧ (b.setWidth 4).toNat ≤ 12 := by
  simp only [bitsInRange, Bool.and_eq_true, decide_eq_true_eq, BitVec.toInt_eq_toNat_cond] at h
  rw [BitVec.toNat_setWidth]
  have := b.isLt
  split at h <;> omega

/-- In the invariant a Ready core is not in reset. -/
theorem State.Inv.rstN_of_ready {s : State} (h : s.Inv) (hready : s.qState = .ready) : s.rstN = true := by
  cases hr : s.rstN with
  | true => rfl
  | false =>
    have hcreated := congrArg State.qState (h.in_reset hr)
    rw [resetBlock_qState, hready] at hcreated
    cases hcreated

/-- The invariant reads of the ports only the pin levels, and those only while Ready. -/
theorem State.Inv.with_ports {s : State} (h : s.Inv) (cmds : List CmdWord) (rspReady : Bool)
    (events : List (Nat × Event)) {a b : Bool} (harmed : s.qState = .ready → s.abPrev = samplePair a b) :
    State.Inv { s with cmds := cmds, rspReady := rspReady, events := events, encA := a, encB := b } where
  precision_pos := h.precision_pos
  resolution_legal := h.resolution_legal
  no_bus_error := h.no_bus_error
  armed := harmed
  in_reset := fun hr => congrArg
    (fun u : State => { u with cmds := cmds, rspReady := rspReady, events := events, encA := a, encB := b })
    (h.in_reset hr)
  sequencer := h.sequencer

/-! ### The invariant: what keeps it -/

/-- A reset, at either level of `rst_n`, gives every element of the table its value (10_state R44). -/
theorem resetBlock_atReset (s : State) (level : Bool) :
    State.AtReset { resetBlock s with rstN := level } := by
  constructor <;> rfl

/-- The reset values meet the invariant (10_state R40). -/
theorem resetBlock_inv (s : State) (level : Bool) : State.Inv { resetBlock s with rstN := level } :=
  have hreset := resetBlock_atReset s level
  { precision_pos := by rw [hreset.precision]; decide
    resolution_legal := by rw [hreset.resolution]; decide
    no_bus_error := by rw [hreset.rspStatus]; decide
    armed := fun hready => absurd (hreset.qState.symm.trans hready) (by decide)
    in_reset := fun _ => rfl
    sequencer := (seqInv_of_idle hreset.seq).2 hreset.dqOe }

theorem tick_keeps_inv {s : State} (h : s.Inv) : (tick s).Inv := by
  unfold tick
  split
  · exact h.with_ports s.cmds s.rspReady _ h.armed
  · exact h

theorem deliverEdge_keeps_inv (a b : Bool) {s : State} (h : s.Inv) : (deliverEdge a b s).Inv := by
  unfold deliverEdge
  split
  case isTrue hready =>
    exact
      { precision_pos := h.precision_pos
        resolution_legal := h.resolution_legal
        no_bus_error := h.no_bus_error
        armed := fun _ => rfl
        in_reset := fun hr => absurd (h.rstN_of_ready hready) (ne_true_of_eq_false hr)
        sequencer := h.sequencer }
  case isFalse hready => exact h.with_ports s.cmds s.rspReady s.events fun hr => absurd hr hready

/-- Every outside event keeps the invariant, whatever the block is doing (70_reset R300, R301). -/
theorem land_keeps_inv (e : Event) {s : State} (h : s.Inv) : (land e s).Inv := by
  cases e with
  | present w => exact h.with_ports (s.cmds ++ [w]) s.rspReady s.events h.armed
  | rspReady level => exact h.with_ports s.cmds level s.events h.armed
  | pins a b =>
    simp only [land, changePins]
    split
    case isTrue hsame => exact h.with_ports s.cmds s.rspReady s.events fun _ => hsame.symm
    case isFalse => exact deliverEdge_keeps_inv a b h
  | qEdge a b => exact deliverEdge_keeps_inv a b h
  | rst level =>
    simp only [land, driveReset]
    split
    · exact h
    · exact resetBlock_inv s level

/-- One step of the OW engine keeps the invariant (10_state R30, R35, R40). -/
theorem microStep_keeps_inv {s : State} (h : s.Inv) {op : WireCmd} {k : Nat} {m : Micro}
    (hq : s.seq = .busy op k) (hm : (s.code op)[k]? = some m) : (microStep m s).Inv := by
  obtain ⟨-, hline, hvalid, hop, how, hrst, hrange⟩ := (seqInv_of_busy hq).1 h.sequencer
  obtain ⟨hallowed, hposition⟩ := code_position hm
  obtain ⟨-, -, hres, hst⟩ := microStep_registers hallowed s
  have hkept := microStep_cases m s
  exact
    { precision_pos := by simpa using h.precision_pos
      resolution_legal := by
        rcases hres with hres | ⟨hset, hres⟩
        · simpa [hres] using h.resolution_legal
        · rw [hres]; exact resolution_legal_of_bitsInRange (hrange hset)
      no_bus_error := by
        rcases hkept with ⟨-, d, hd⟩ | ⟨kind, hkind, hraise⟩ | ⟨-, -, -, hstatus, -⟩
        · simp [hd]
        · simpa [hraise] using hkind
        · simpa [hstatus] using h.no_bus_error
      armed := by simpa using h.armed
      in_reset := by simp [hrst]
      sequencer := by
        rcases hkept with ⟨hlast, d, hd⟩ | ⟨kind, -, hraise⟩ | ⟨hmid, hseq, hvalid', -, hline'⟩
        · have hreleased := (hposition.resolve_right (by simp [hlast])).2
          rw [seqInv_of_idle (by rw [hd]; rfl), hd]
          simpa using hline.trans hreleased
        · rw [seqInv_of_idle (by rw [hraise]; rfl), hraise]
          rfl
        · have hlt := (hposition.resolve_left (by simp [hmid])).2
          have htake : (s.code op).take (k + 1) = (s.code op).take k ++ [m] := by
            rw [List.take_add_one, hm]; rfl
          have hq' : (microStep m s).seq = .busy op (k + 1) := hseq.trans (congrArg (Seq.bump 1) hq)
          rw [seqInv_of_busy hq', microStep_code, microStep_cmdOp, microStep_rstN, microStep_cmdArg, htake]
          refine ⟨hlt, hline' _ hline, hvalid'.trans hvalid, hop, ?_, hrst, hrange⟩
          rcases hst with hst | hst
          · rwa [hst]
          · exact hst }

/-- A command in flight, run to its end, keeps the invariant. -/
theorem runOut_keeps_inv {s : State} (h : s.Inv) : (runOut s).Inv := by
  cases hq : s.seq with
  | idle => rwa [runOut_of_idle hq]
  | busy op k => exact runOut_induction (fun _ _ _ hq hm hu => microStep_keeps_inv hu hq hm) hq h

/-- In Idle, out of reset, `rsp_valid` is free (10_state R34). -/
theorem State.Inv.with_rspValid {s : State} (h : s.Inv) (hrst : s.rstN = true) (hq : s.seq = .idle)
    (level : Bool) : State.Inv { s with rspValid := level } where
  precision_pos := h.precision_pos
  resolution_legal := h.resolution_legal
  no_bus_error := h.no_bus_error
  armed := h.armed
  in_reset := fun hr => absurd hrst (ne_true_of_eq_false hr)
  sequencer :=
    have hline : s.dqOe = false := (seqInv_of_idle hq).1 h.sequencer
    (seqInv_of_idle (s := { s with rspValid := level }) hq).2 hline

/-- In Idle, out of reset, the latch is free (10_state R33). -/
theorem accept_keeps_inv {s : State} (h : s.Inv) (hrst : s.rstN = true) (hq : s.seq = .idle) (w : CmdWord)
    (rest : List CmdWord) : (accept w rest s).Inv where
  precision_pos := h.precision_pos
  resolution_legal := h.resolution_legal
  no_bus_error := h.no_bus_error
  armed := h.armed
  in_reset := fun hr => absurd hrst (ne_true_of_eq_false hr)
  sequencer :=
    have hline : s.dqOe = false := (seqInv_of_idle hq).1 h.sequencer
    (seqInv_of_idle (s := accept w rest s) hq).2 hline

/-- The word of a wire command carries its opcode (30_encoding R96). -/
theorem op_of_wireCmdOf_decode {w : CmdWord} {op : WireCmd} (h : wireCmdOf (decode w) = some op) :
    w.op = op.opcode := by
  unfold decode at h
  split at h
  case h_3 hop | h_4 hop | h_5 hop | h_6 hop =>
    cases h
    exact BitVec.eq_of_toNat_eq hop
  all_goals cases h

/-- The quadrature part of the invariant after the first step of a command (41_quadrature R162, R164). -/
theorem beginInstr_keeps_quadrature_inv {s : State} (h : s.Inv) (i : Instr) :
    1 ≤ (beginInstr i s).precision.toInt ∧
    ((beginInstr i s).qState = .ready → (beginInstr i s).abPrev = s.abNow) := by
  by_cases hi : ∃ p, i = .qConfigure p
  · obtain ⟨p, rfl⟩ := hi
    obtain ⟨-, hprec, harmed⟩ := startQConfigure_registers p s
    exact ⟨hprec h.precision_pos, harmed⟩
  · obtain ⟨hprec, hstate, -, hprev⟩ := (beginInstr_registers i s).1 fun p hp => hi ⟨p, hp⟩
    rw [hprec, hstate, hprev]
    exact ⟨h.precision_pos, h.armed⟩

/-- The step that accepts a command keeps the invariant (30_encoding R90). -/
theorem beginInstr_accept_keeps_inv {s : State} (h : s.Inv) (hrst : s.rstN = true) (hq : s.seq = .idle)
    (hvalid : s.rspValid = false) (w : CmdWord) (rest : List CmdWord) :
    (beginInstr (decode w) (accept w rest s)).Inv := by
  have hline : s.dqOe = false := (seqInv_of_idle hq).1 h.sequencer
  obtain ⟨-, -, hstatus, hreleased⟩ := beginInstr_registers (decode w) (accept w rest s)
  obtain ⟨hprec, harmed⟩ := beginInstr_keeps_quadrature_inv (accept_keeps_inv h hrst hq w rest) (decode w)
  exact
    { precision_pos := hprec
      resolution_legal := by simpa using h.resolution_legal
      no_bus_error := hstatus h.no_bus_error
      armed := by simpa using harmed
      in_reset := by simp [hrst]
      sequencer := by
        cases hq' : (beginInstr (decode w) (accept w rest s)).seq with
        | idle => exact (seqInv_of_idle hq').2 (hreleased hline)
        | busy op k =>
          obtain ⟨hcmd, rfl, how, how', hline', hvalid', hrange⟩ := beginInstr_busy hq'
          refine (seqInv_of_busy hq').2
            ⟨code_length_pos _ op, hline'.trans hline, hvalid'.trans hvalid, ?_, how' ▸ how, ?_, hrange⟩
          · simpa using op_of_wireCmdOf_decode hcmd
          · simpa using hrst }

/-- Settles O14: by the cases of a step, each of which keeps the invariant. -/
theorem stepKeepsInvariant : Obligations.StepKeepsInvariant := by
  intro s t h hstep
  rcases step_cases hstep with
    ⟨e, es, -, rfl⟩ | ⟨-, -, rfl⟩ | ⟨-, -, op, k, m, hq, hm, rfl⟩ | ⟨-, hrst, hq, -, rfl⟩ |
    ⟨-, -, -, -, -, rfl⟩ | ⟨w, rest, -, hrst, hq, hvalid, -, -, rfl⟩ |
    ⟨w, rest, -, hrst, hq, hvalid, -, -, rfl⟩
  · exact land_keeps_inv e (h.with_ports s.cmds s.rspReady es h.armed)
  · exact tick_keeps_inv h
  · exact microStep_keeps_inv (tick_keeps_inv h) (by simpa using hq) (by simpa using hm)
  · exact (tick_keeps_inv h).with_rspValid (by simpa using hrst) (by simpa using hq) _
  · exact tick_keeps_inv h
  · exact runOut_keeps_inv (beginInstr_accept_keeps_inv h hrst hq hvalid w rest)
  · exact beginInstr_accept_keeps_inv (tick_keeps_inv h) (by simpa using hrst) (by simpa using hq)
      (by simpa using hvalid) w rest


/-! ### Reset (O11, O13) -/

/-- Settles O13: the state after reset is a reset at the high level of `rst_n`. -/
theorem resetMeetsInvariant : Obligations.ResetMeetsInvariant := resetBlock_inv State.reset true

/-- Settles O11: in reset the invariant says that a state is its own reset. -/
theorem resetValues : Obligations.ResetValues := by
  refine ⟨resetBlock_atReset State.reset true, fun s => ?_, fun s hlow => ?_, fun s h hlow => ?_⟩
  · exact resetBlock_atReset s false
  · have hrise : land (.rst true) s = { resetBlock s with rstN := true } := by simp [land, driveReset, hlow]
    rw [hrise]
    exact resetBlock_atReset s true
  · rw [← h.in_reset hlow]
    exact resetBlock_atReset s s.rstN

/-! ### How the machine takes a command -/

section
variable {s : State} (hrst : s.rstN = true)
include hrst

/-- Busy, with no event due, a step is the one at the sequencer position (10_state R30). -/
theorem step_of_busy {op : WireCmd} {k : Nat} {m : Micro} (hq : s.seq = .busy op k) (hp : popDue s = none)
    (hm : (s.code op)[k]? = some m) : step s = .next (microStep m (tick s)) := by
  simp [step, hp, blockStep, hrst, hq, engineStep, hm]

/-- Idle, with no event due, a step is the command port's (30_encoding R90). -/
theorem step_of_idle (hq : s.seq = .idle) (hp : popDue s = none) : step s = portStep s := by
  simp [step, hp, blockStep, hrst, hq]

/-- With no outside event to come the word at the port is run whole. -/
theorem step_accept_whole (hq : s.seq = .idle) (hvalid : s.rspValid = false) {w : CmdWord}
    {rest : List CmdWord} (hcmds : s.cmds = w :: rest) (hev : s.events = []) :
    step s = exec (decode w) (accept w rest s) := by
  rw [step_of_idle hrst hq ((popDue_eq_none_iff s).2 (.inl hev))]
  simp [portStep, hvalid, hcmds, hev]

/-- With one to come the step is the command's first. -/
theorem step_accept_first (hq : s.seq = .idle) (hvalid : s.rspValid = false) {w : CmdWord}
    {rest : List CmdWord} (hcmds : s.cmds = w :: rest) {n : Nat} {e : Event} {es : List (Nat × Event)}
    (hev : s.events = (n + 1, e) :: es) :
    step s = .next (beginInstr (decode w) (accept w rest (tick s))) := by
  rw [step_of_idle hrst hq ((popDue_eq_none_iff s).2 (.inr ⟨n, e, es, hev⟩))]
  simp [portStep, hvalid, hcmds, hev]

end

/-- Settles O7: the port takes the first step of a command, and the OW engine one of the steps after it. -/
theorem stepIsOneEngineStepWhileEventsPend : Obligations.StepIsOneEngineStepWhileEventsPend := by
  refine ⟨fun s w rest n e es hrst hev hq hvalid hcmds => ?_, fun s op k m hrst hq hp hm => ?_⟩
  · have htick : tick s = { s with events := (n, e) :: es } := by simp [tick, hev]
    rw [step_accept_first hrst hq hvalid hcmds hev, htick]
  · exact step_of_busy hrst hq hp hm

/-- Settles O10: with a response pending the port consumes it if the host is ready, and does nothing if not. -/
theorem responseHeldUntilConsumed : Obligations.ResponseHeldUntilConsumed := by
  intro s hrst hp hq hvalid
  rw [step_of_idle hrst hq hp]
  cases hready : s.rspReady with
  | true => simp [portStep, hvalid, hready, consume]
  | false =>
    have hkept : tick s = { tick s with rspValid := true } := by rw [← hvalid, ← tick_rspValid s]
    simpa [portStep, hvalid, hready] using hkept

/-- Whether a command reaches the wire depends on `ow_state` alone. -/
theorem reachesWire_congr {s s' : State} (h : s'.owState = s.owState) (i : Instr) :
    reachesWire i s' = reachesWire i s := by
  simp only [reachesWire, h]

/-- Settles O22: the first step of such a command ends it, so that running it whole or step by step is the
same. -/
theorem commandWithoutWireTakesOneStep : Obligations.CommandWithoutWireTakesOneStep := by
  constructor
  · intro i s hwire
    obtain ⟨hidle, -⟩ := beginInstr_idle_of_not_reachesWire hwire
    exact ⟨by rw [exec_eq_runOut, runOut_of_idle hidle], hidle⟩
  · intro s w rest hrst hp hq hvalid hcmds hwire
    obtain ⟨hidle, hrsp⟩ := beginInstr_idle_of_not_reachesWire (s := accept w rest (tick s))
      ((reachesWire_congr (tick_owState s) (decode w)).trans hwire)
    refine ⟨beginInstr (decode w) (accept w rest (tick s)), ?_, hidle, hrsp⟩
    rcases (popDue_eq_none_iff s).1 hp with hev | ⟨n, e, es, hev⟩
    · rw [tick_of_nil hev] at hidle ⊢
      rw [step_accept_whole hrst hq hvalid hcmds hev, exec_eq_runOut, runOut_of_idle hidle]
    · exact step_accept_first hrst hq hvalid hcmds hev

/-! ### A command step by step and whole (O16) -/

/-- One step more at the end of a run. -/
theorem runSteps_succ_of_next {n : Nat} {s u : State} (h : runSteps n s = .next u) :
    runSteps (n + 1) s = step u := by
  induction n generalizing s with
  | zero =>
    cases h
    rw [runSteps]
    cases step u <;> rfl
  | succ n ih =>
    rw [runSteps] at h ⊢
    cases hs : step s with
    | next t => rw [hs] at h; exact ih h
    | fault f => rw [hs] at h; cases h
    | refused r => rw [hs] at h; cases h

/-- Out of reset, with no outside event to come, steps of the machine run the command in flight to its end. -/
theorem runSteps_reach_runOut {s : State} (hev : s.events = []) (hrst : s.rstN = true) :
    ∃ n, runSteps n s = .next (runOut s) := by
  cases hq : s.seq with
  | idle => exact ⟨0, by rw [runOut_of_idle hq]; rfl⟩
  | busy op k =>
    have hreached : (∃ n, runSteps n s = .next (runOut s)) ∧ (runOut s).events = [] ∧
        (runOut s).rstN = true := by
      refine runOut_induction
        (P := fun u => (∃ n, runSteps n s = .next u) ∧ u.events = [] ∧ u.rstN = true)
        ?_ hq ⟨⟨0, rfl⟩, hev, hrst⟩
      rintro u k m hq hm ⟨⟨n, hn⟩, hev, hrst⟩
      refine ⟨⟨n + 1, ?_⟩, by simpa using hev, by simpa using hrst⟩
      rw [runSteps_succ_of_next hn,
        step_of_busy hrst hq ((popDue_eq_none_iff u).2 (.inl hev)) hm, tick_of_nil hev]
    exact hreached.1

/-- Settles O16: both ways run the same code from the same first step. -/
theorem stepsOfACommandReachExecResult : Obligations.StepsOfACommandReachExecResult := by
  intro i s hev hrst
  obtain ⟨n, hn⟩ := runSteps_reach_runOut (s := beginInstr i s) (by simpa using hev) (by simpa using hrst)
  exact ⟨n, _, exec_eq_runOut i s, hn⟩

/-! ### Who writes which register (O25, O26) -/

/-- A whole command leaves the buffers and `resolution` but for the wire command that writes each (10_state R27
to R29). -/
theorem runOut_beginInstr_registers (i : Instr) (s : State) :
    (wireCmdOf i ≠ some .readTemperature → (runOut (beginInstr i s)).scratchpad = s.scratchpad) ∧
    (wireCmdOf i ≠ some .readAddress → (runOut (beginInstr i s)).romBuf = s.romBuf) ∧
    (wireCmdOf i ≠ some .setResolution → (runOut (beginInstr i s)).resolution = s.resolution) := by
  cases hq : (beginInstr i s).seq with
  | idle => simp [hq]
  | busy op k =>
    obtain ⟨hcmd, -⟩ := beginInstr_busy hq
    simpa [hcmd] using runOut_registers hq

/-- `ow_begin()`, straight code and then `complete(0)` (42_ds18b20 R193, R194, R198). -/
theorem runCode_begin_completeZero {l : List Micro} (hl : l.all Micro.straight = true) {s : State}
    (hs : s.seq ≠ .idle) :
    runCode (beginCode ++ (l ++ [.completeZero])) s =
      if s.nextPresence then complete 0 (applyAll l (advance (afterReset s)))
      else raise .notConnected (afterReset s) := by
  have hbusy : (advance (afterReset s)).seq ≠ .idle := by simpa [afterReset, applyAll_resetCode] using hs
  rw [runCode_begin _ hs, runCode_straight hl hbusy, runCode_cons_of_idle rfl]
  rfl

/-- A `SetResolution` out of range, or one that does not end OK, leaves `resolution` (42_ds18b20 R193). -/
theorem setResolution_keeps_resolution {rid : Option RomId} {bits : Word} {s : State}
    (h : bitsInRange bits = false ∨ (runOut (beginInstr (.setResolution rid bits) s)).rspStatus ≠ .ok) :
    (runOut (beginInstr (.setResolution rid bits) s)).resolution = s.resolution := by
  cases hwire : reachesWire (.setResolution rid bits) s with
  | false =>
    obtain ⟨hidle, -⟩ := beginInstr_idle_of_not_reachesWire hwire
    rw [runOut_of_idle hidle, beginInstr_resolution]
  | true =>
    simp only [reachesWire, checksOwState, Bool.true_and, Bool.and_eq_true, bne_iff_ne] at hwire
    obtain ⟨how, hbits⟩ := hwire
    have hfail := h.resolve_left (by simp [hbits])
    have hstraight : (writeBytesCode (selectedBytes rid) ++
        writeBytesCode [0x4E, 0xFF, 0x00, configByte bits] ++ [Micro.keepResolution]).all Micro.straight = true := by
      simp [writeBytesCode_straight, Micro.straight]
    have hrun := runCode_begin_completeZero hstraight
      (s := enter .setResolution (latchArg bits (latchRomId rid s))) (by simp)
    simp only [List.append_assoc, List.cons_append, List.nil_append] at hrun
    rw [beginInstr, runOut_startSetResolution rid bits how hbits, hrun] at hfail ⊢
    split
    case isTrue hpresent => simp [hpresent] at hfail
    case isFalse => simp [afterReset, applyAll_resetCode]

/-- Settles O25: the first step of a command writes the quadrature registers, the rest of its code the one-wire
ones. -/
theorem onlyTheNamedCommandsWrite : Obligations.OnlyTheNamedCommandsWrite := by
  intro i s t hexec
  rw [exec_eq_runOut] at hexec
  cases hexec
  obtain ⟨hscratch, hrom, hres⟩ := runOut_beginInstr_registers i s
  obtain ⟨hold, hcount, hprec, hstate, hpu, hprev⟩ := runOut_quadrature (beginInstr i s)
  obtain ⟨hset, hcount', -, -⟩ := beginInstr_registers i s
  refine ⟨fun hi => hscratch ?_, fun hi => hrom ?_, fun hi => ?_, fun hi => ?_, fun hi => ?_, ?_⟩
  · cases i <;> simp_all [wireCmdOf]
  · cases i <;> simp_all [wireCmdOf]
  · cases i with
    | setResolution rid bits => exact setResolution_keeps_resolution (hi rid bits rfl)
    | _ => exact hres (by simp [wireCmdOf])
  · refine hcount.trans (hcount' fun v hv => ?_)
    subst hv
    obtain ⟨hidle, -⟩ := beginInstr_idle_of_not_reachesWire (i := .setPosition v) (s := s) rfl
    simpa [hidle] using hi v rfl
  · obtain ⟨hprec', hstate', hpu', hprev'⟩ := hset hi
    exact ⟨hprec.trans hprec', hstate.trans hstate', hpu.trans hpu', hprev.trans hprev'⟩
  · exact hold.trans (beginInstr_oldAb i s)

/-- An outside event other than one of `rst_n` leaves the pull-up enable (10_state R36). -/
theorem land_encPuEn {e : Event} (he : ∀ level, e ≠ .rst level) (s : State) :
    (land e s).encPuEn = s.encPuEn := by
  cases e with
  | rst level => exact absurd rfl (he level)
  | pins a b => rw [land_encoder_frame _ _ rfl]
  | qEdge a b => rw [land_encoder_frame _ _ rfl]
  | present w | rspReady level => rfl

/-- The pull-up enable once set stays set over every step but the landing of a reset event. -/
theorem step_keeps_encPuEn {s t : State} (hstep : step s = .next t) (hset : s.encPuEn = true) :
    t.encPuEn = true ∨ ∃ level es, s.events = (0, .rst level) :: es := by
  have hrun (u : State) : (runOut u).encPuEn = u.encPuEn := by
    obtain ⟨-, -, -, -, hpu, -⟩ := runOut_quadrature u
    exact hpu
  rcases step_cases hstep with
    ⟨e, es, hev, rfl⟩ | ⟨-, -, rfl⟩ | ⟨-, -, op, k, m, -, -, rfl⟩ | ⟨-, -, -, -, rfl⟩ |
    ⟨-, -, -, -, -, rfl⟩ | ⟨w, rest, -, -, -, -, -, -, rfl⟩ | ⟨w, rest, -, -, -, -, -, -, rfl⟩
  · by_cases he : ∃ level, e = .rst level
    · obtain ⟨level, rfl⟩ := he
      exact .inr ⟨level, es, hev⟩
    · exact .inl ((land_encPuEn (fun level hl => he ⟨level, hl⟩) _).trans hset)
  · simp [hset]
  · simp [hset]
  · simp [hset]
  · simp [hset]
  · exact .inl ((hrun _).trans (beginInstr_encPuEn (by simpa using hset) _))
  · exact .inl (beginInstr_encPuEn (by simpa using hset) _)

/-- Settles O26: a `Q.Configure` is its first step, which sets the enable; no step but a reset clears it. -/
theorem pullUpClearedOnlyByReset : Obligations.PullUpClearedOnlyByReset := by
  refine ⟨rfl, fun s p => ?_, fun s t hstep hset hclear => ?_⟩
  · obtain ⟨hpu, -⟩ := startQConfigure_registers p s
    exact ⟨startQConfigure p s, rfl, hpu⟩
  · exact (step_keeps_encPuEn hstep hset).resolve_left (ne_true_of_eq_false hclear)

end Sys2Proof.Machine

/-! PROOF. The family 20_memory: an outside event that is due lands (O8); the two cores run side by side without
touching each other (O17, O24); the one register both the host and the edge events write (O51). -/

namespace Sys2Proof.Machine

/-! ### An event that is due (O8) -/

/-- An outside event with no steps left before it is taken off the list. -/
theorem popDue_of_due {s : State} {e : Event} {es : List (Nat × Event)} (h : s.events = (0, e) :: es) :
    popDue s = some (e, { s with events := es }) := by
  simp [popDue, h]

/-- A step with an outside event due is the landing of that event. -/
theorem step_of_due {s : State} {e : Event} {es : List (Nat × Event)} (h : s.events = (0, e) :: es) :
    step s = .next (land e { s with events := es }) := by
  simp [step, popDue_of_due h]

/-- Settles O8: the step looks at the list of events before it looks at the block. -/
theorem dueEventLandsFirst : Obligations.DueEventLandsFirst :=
  fun _ _ _ h => step_of_due h

/-! ### Encoder events and the OW engine commute (O17) -/

theorem deliverEdge_of_ready {s : State} (h : s.qState = .ready) (a b : Bool) :
    deliverEdge a b s = edgeEvent a b { s with encA := a, encB := b, abPrev := samplePair a b } :=
  if_pos h

theorem deliverEdge_of_not_ready {s : State} (h : s.qState ≠ .ready) (a b : Bool) :
    deliverEdge a b s = { s with encA := a, encB := b } :=
  if_neg h

theorem changePins_of_same {s : State} {a b : Bool} (h : samplePair a b = s.abPrev) :
    changePins a b s = { s with encA := a, encB := b } :=
  if_pos h

theorem changePins_of_changed {s : State} {a b : Bool} (h : samplePair a b ≠ s.abPrev) :
    changePins a b s = deliverEdge a b s :=
  if_neg h

theorem land_encoder_seq {e : Event} (he : isEncoderEvent e = true) (s : State) :
    (land e s).seq = s.seq := by
  rw [land_encoder_frame e s he]

theorem land_encoder_code {e : Event} (he : isEncoderEvent e = true) (s : State) (op : WireCmd) :
    (land e s).code op = s.code op := by
  rw [land_encoder_frame e s he]; rfl

/-- A step of the OW engine does not read what an encoder event writes: the pin levels, the detector's sample,
the history and the counter (20_memory R74). -/
theorem microStep_withEncoder (m : Micro) (s : State) (a b : Bool) (prev : BitVec 2) (history : BitVec 4)
    (count : Word) :
    microStep m { s with encA := a, encB := b, abPrev := prev, oldAb := history, counter := count } =
      { microStep m s with encA := a, encB := b, abPrev := prev, oldAb := history, counter := count } := by
  cases m with
  | pad act => cases act <;> rfl
  | needPresence | checkRom | checkScratch => simp only [microStep]; split <;> rfl
  | _ => rfl

/-- The same of the pin levels alone. -/
theorem microStep_withPins (m : Micro) (s : State) (a b : Bool) :
    microStep m { s with encA := a, encB := b } = { microStep m s with encA := a, encB := b } := by
  have h := microStep_withEncoder m s a b s.abPrev s.oldAb s.counter
  rw [h, ← microStep_abPrev m s, ← microStep_oldAb m s, ← microStep_counter m s]

theorem microStep_deliverEdge (m : Micro) (a b : Bool) (s : State) :
    microStep m (deliverEdge a b s) = deliverEdge a b (microStep m s) := by
  by_cases hready : s.qState = .ready
  · rw [deliverEdge_of_ready hready, deliverEdge_of_ready (by simpa using hready)]
    have h := microStep_withEncoder m s a b (samplePair a b) (edgeIndex s a b)
      (s.counter + BitVec.ofInt 32 (lut (edgeIndex s a b)))
    simpa [edgeEvent, edgeIndex] using h
  · rw [deliverEdge_of_not_ready hready, deliverEdge_of_not_ready (by simpa using hready)]
    exact microStep_withPins m s a b

theorem microStep_changePins (m : Micro) (a b : Bool) (s : State) :
    microStep m (changePins a b s) = changePins a b (microStep m s) := by
  by_cases hsame : samplePair a b = s.abPrev
  · rw [changePins_of_same hsame, changePins_of_same (by simpa using hsame)]
    exact microStep_withPins m s a b
  · rw [changePins_of_changed hsame, changePins_of_changed (by simpa using hsame)]
    exact microStep_deliverEdge m a b s

/-- An encoder event and a step of the OW engine come to the same in either order (20_memory R74). -/
theorem microStep_land_encoder {e : Event} (he : isEncoderEvent e = true) (m : Micro) (s : State) :
    microStep m (land e s) = land e (microStep m s) := by
  cases e with
  | pins a b => exact microStep_changePins m a b s
  | qEdge a b => exact microStep_deliverEdge m a b s
  | present w | rspReady level | rst level => cases he

theorem runCode_land_encoder {e : Event} (he : isEncoderEvent e = true) (ms : List Micro) (s : State) :
    runCode ms (land e s) = land e (runCode ms s) := by
  induction ms generalizing s with
  | nil => rfl
  | cons m ms ih =>
    have hstep := microStep_land_encoder he m s
    have hseq : (microStep m (land e s)).seq = (microStep m s).seq := by rw [hstep, land_encoder_seq he]
    by_cases hq : (microStep m s).seq = .idle
    · rw [runCode_cons_of_idle hq, runCode_cons_of_idle (hseq.trans hq), hstep]
    · rw [runCode_cons_of_busy hq, runCode_cons_of_busy (by rwa [hseq]), hstep, ih]

/-- The same of the command in flight, at any position, run to its end. -/
theorem runOut_land_encoder {e : Event} (he : isEncoderEvent e = true) (s : State) :
    runOut (land e s) = land e (runOut s) := by
  cases hq : s.seq with
  | idle => rw [runOut_of_idle hq, runOut_of_idle ((land_encoder_seq he s).trans hq)]
  | busy op k =>
    simpa [runOut, land_encoder_seq he, land_encoder_code he, hq] using
      runCode_land_encoder he ((s.code op).drop k) s

/-- Settles O17: the event commutes with the rest of the command; the trace and the response are no part of what
it writes, and the counter no part of what the command writes. -/
theorem edgeEventInsideCommandEqualsAfter : Obligations.EdgeEventInsideCommandEqualsAfter := by
  intro s e op k he _
  have hcommute := runOut_land_encoder he s
  obtain ⟨-, hcounter, -⟩ := runOut_quadrature (land e s)
  refine ⟨hcommute, ?_, ?_, hcounter⟩
  · rw [hcommute, land_encoder_frame e _ he]
  · rw [hcommute, land_encoder_frame e _ he]; rfl

/-! ### Commands of one core and the registers of the other (O24) -/

section
variable (i : Instr) (s : State)

@[simp] theorem beginInstr_presence : (beginInstr i s).presence = s.presence := by rw [beginInstr_frame]
@[simp] theorem beginInstr_dqSampled : (beginInstr i s).dqSampled = s.dqSampled := by rw [beginInstr_frame]
@[simp] theorem beginInstr_shiftReg : (beginInstr i s).shiftReg = s.shiftReg := by rw [beginInstr_frame]
@[simp] theorem beginInstr_samples : (beginInstr i s).samples = s.samples := by rw [beginInstr_frame]
@[simp] theorem beginInstr_trace : (beginInstr i s).trace = s.trace := by rw [beginInstr_frame]
@[simp] theorem beginInstr_waited : (beginInstr i s).waited = s.waited := by rw [beginInstr_frame]

end

/-- Of the first steps only that of `OW.Configure` writes `ow_state` (42_ds18b20 R190). -/
theorem beginInstr_owState {i : Instr} (hi : i ≠ .owConfigure) (s : State) :
    (beginInstr i s).owState = s.owState := by
  cases i with
  | owConfigure => exact absurd rfl hi
  | setResolution rid bits =>
    simp only [beginInstr, startSetResolution, whenConfigured]; (repeat' split) <;> simp
  | requestTemperature rid =>
    simp only [beginInstr, startRequestTemperature, whenConfigured]; split <;> simp
  | readTemperature rid => simp only [beginInstr, startReadTemperature, whenConfigured]; split <;> simp
  | readAddress => simp only [beginInstr, startReadAddress, whenConfigured]; split <;> simp
  | qConfigure p => simp only [beginInstr, startQConfigure]; split <;> simp
  | position => simp only [beginInstr, startPosition, whenArmed]; split <;> simp
  | setPosition v => simp only [beginInstr, startSetPosition, whenArmed]; split <;> simp
  | reserved0 | reserved67 op | reservedB | reservedCF op => simp [beginInstr, reservedOpcode]

/-- A command that does not reach the wire is, as a whole, its first step (10_state R31). -/
theorem runOut_beginInstr_of_not_reachesWire {i : Instr} {s : State} (h : reachesWire i s = false) :
    runOut (beginInstr i s) = beginInstr i s :=
  runOut_of_idle (beginInstr_idle_of_not_reachesWire h).1

/-- A quadrature command or a reserved opcode is no command of the one-wire core (30_encoding R96, R97). -/
theorem not_oneWire_of_quadrature_or_reserved {i : Instr} (h : isQuadrature i = true ∨ isReserved i = true) :
    i ≠ .owConfigure ∧ checksOwState i = false := by
  cases i with
  | owConfigure | readAddress | setResolution rid bits | requestTemperature rid | readTemperature rid =>
    simp [isQuadrature, isReserved] at h
  | qConfigure p | position | setPosition v | reserved0 | reserved67 op | reservedB | reservedCF op =>
    simp [checksOwState]

/-- Settles O24: no micro-operation writes the quadrature core, and a command of that core, like a reserved
opcode, is done by its first step, which writes nothing of the one-wire core. -/
theorem coresDoNotTouchEachOther : Obligations.CoresDoNotTouchEachOther := by
  intro i s t hexec
  rw [exec_eq_runOut] at hexec
  cases hexec
  refine ⟨fun hi => ?_, fun hi => ?_⟩
  · obtain ⟨hold, hcount, hprec, hstate, hpu, hprev⟩ := runOut_quadrature (beginInstr i s)
    obtain ⟨hset, hcount', -, -⟩ := beginInstr_registers i s
    obtain ⟨hprec', hstate', hpu', hprev'⟩ := hset fun p hp => by simp [hp, isQuadrature] at hi
    have hcount' := hcount' fun v hv => by simp [hv, isQuadrature] at hi
    exact ⟨hold.trans (beginInstr_oldAb i s), hcount.trans hcount', hprec.trans hprec', hstate.trans hstate',
      hprev.trans hprev', hpu.trans hpu'⟩
  · obtain ⟨hne, hcheck⟩ := not_oneWire_of_quadrature_or_reserved hi
    have hwire : reachesWire i s = false := by simp [reachesWire, hcheck]
    rw [runOut_beginInstr_of_not_reachesWire hwire]
    simp [beginInstr_owState hne]

/-! ### `SetPosition` and edge events (O51) -/

/-- `SetPosition` in Ready: the counter stored, whatever it was before (41_quadrature R166). -/
theorem exec_setPosition_of_ready {s : State} (h : s.qState = .ready) (v : Word) :
    exec (.setPosition v) s = .next (complete 0 { s with counter := v * s.precision }) := by
  simp [exec, execSetPosition, startSetPosition, whenArmed, h]

/-- Settles O51: an edge event leaves `q_state` and `precision`, all that the store reads; the store leaves the
history, all but the counter that the event reads. -/
theorem setPositionOverwritesEarlierEdges : Obligations.SetPositionOverwritesEarlierEdges := by
  intro s v a b hready
  have hstill : (land (.qEdge a b) s).qState = .ready := by rw [land_encoder_frame _ _ rfl]; exact hready
  refine ⟨_, _, exec_setPosition_of_ready hstill v, ?_, exec_setPosition_of_ready hready v, ?_⟩
  · rw [land_encoder_frame _ _ rfl]; rfl
  · rw [land, deliverEdge_of_ready (by simpa using hready)]; rfl

end Sys2Proof.Machine

/-! PROOF. The family 30_encoding: the decoder and the encoder (O1, O2, O4); the fields a command reads (O3); when
a word is accepted (O6, O9) and how its command ends (O18, O21, O52); the response word, the configuration byte
and the lookup table (O5, O58, O59). -/

namespace Sys2Proof.Machine

/-! ### The decoder and the encoder (O1, O2, O4) -/

section
variable (op : BitVec 4) (rid : Option RomId) (arg : Word)

@[simp] theorem packWord_rom (rp : Bool) (rom : BitVec 64) :
    CmdWord.rom (packWord op rp arg rom) = romOfBits rom := by
  rw [CmdWord.rom, packWord_romField]

@[simp] theorem packRomId_op : (packRomId op rid arg).op = op := by
  cases rid <;> simp [packRomId]

@[simp] theorem packRomId_arg : (packRomId op rid arg).arg = arg := by
  cases rid <;> simp [packRomId]

/-- The operand `rom_id` read back from its word (30_encoding R100). -/
@[simp] theorem packRomId_romId : (packRomId op rid arg).romId = rid := by
  cases rid <;> simp [packRomId, CmdWord.romId, romOfBits_bitsOfRom]

end

/-- The round trip of an instruction: each operand is read back from its field, and a row of several opcodes
carries the one it has. -/
theorem decode_encode {i : Instr} (h : i.wellFormed = true) : decode (encode i) = i := by
  cases i with
  | reserved67 op =>
    simp only [Instr.wellFormed, Bool.or_eq_true, beq_iff_eq] at h
    rcases h with rfl | rfl <;> simp [encode, decode]
  | reservedCF op =>
    simp only [Instr.wellFormed, Bool.or_eq_true, beq_iff_eq] at h
    rcases h with ((rfl | rfl) | rfl) | rfl <;> simp [encode, decode]
  | _ => simp [encode, decode]

/-- Every word decodes to an instruction whose carried opcode, if any, is one of its row (30_encoding R97). -/
theorem decode_wellFormed (w : CmdWord) : (decode w).wellFormed = true := by
  fun_cases decode w
  case case7 hop | case8 hop => simp [Instr.wellFormed, ← BitVec.toNat_inj, hop]
  case case13 =>
    simp only [imp_false] at *
    have hlt : w.op.toNat < 16 := w.op.isLt
    simp only [Instr.wellFormed, Bool.or_eq_true, beq_iff_eq, ← BitVec.toNat_inj, BitVec.toNat_ofNat]
    omega
  all_goals rfl

/-- The instruction of a word is encoded under the word's own opcode (30_encoding R96, R97). -/
theorem encode_decode_op (w : CmdWord) : (encode (decode w)).op = w.op := by
  fun_cases decode w
  case case7 | case8 | case13 => simp [encode]
  all_goals simp [encode, ← BitVec.toNat_inj, *]

/-- The decoder reads of a word its opcode and the fields that opcode reads (30_encoding R92). -/
theorem decode_congr {w w' : CmdWord} (h : agreeOnReadFields w w' = true) : decode w = decode w' := by
  simp only [agreeOnReadFields, Bool.and_eq_true, beq_iff_eq] at h
  obtain ⟨hop, hread⟩ := h
  -- in each row `hread` says that the fields of this row agree
  fun_cases decode w <;> simp_all [decode]

/-- Settles O1: each operand of an instruction is a field of its word. -/
theorem decodeOfEncodeIsTheInstruction : Obligations.DecodeOfEncodeIsTheInstruction :=
  fun _ h => decode_encode h

/-- Settles O2: a decoded word is well-formed, so that the round trip of the instruction applies to it. -/
theorem everyWordDecodesWellFormed : Obligations.EveryWordDecodesWellFormed :=
  fun w => ⟨decode_wellFormed w, encode_decode_op w, decode_encode (decode_wellFormed w)⟩

/-- Settles O4: twelve closed words, evaluated. -/
theorem writtenOutWordsDecode : Obligations.WrittenOutWordsDecode := by
  unfold Obligations.WrittenOutWordsDecode
  decide

/-! ### The latch and the meaning of a command (O3) -/

section
variable (s : State) (op : BitVec 4) (rp : Bool) (arg : Word) (rom : RomId)

/-- The state with other latched command fields (10_state R33). -/
def State.withLatch : State := { s with cmdOp := op, cmdRp := rp, cmdArg := arg, cmdRom := rom }

/-- Of the latch the OW engine's next step reads only the argument, and only to keep a resolution (42_ds18b20
R193). -/
theorem microStep_withLatch {m : Micro} (harg : m = .keepResolution → arg = s.cmdArg) :
    microStep m (s.withLatch op rp arg rom) = (microStep m s).withLatch op rp arg rom := by
  cases m with
  | keepResolution => obtain rfl := harg rfl; rfl
  | pad a => cases a <;> rfl
  | needPresence => cases hp : s.presence <;> simp [microStep, State.withLatch, hp, advance, raise]
  | checkRom => cases hp : romValid s.romBuf <;> simp [microStep, State.withLatch, hp, advance, raise]
  | checkScratch =>
    cases hp : scratchpadValid s.scratchpad <;> simp [microStep, State.withLatch, hp, advance, raise]
  | _ => rfl

/-- The same of straight-line code run to its end. -/
theorem runCode_withLatch {ms : List Micro} (harg : .keepResolution ∈ ms → arg = s.cmdArg) :
    runCode ms (s.withLatch op rp arg rom) = (runCode ms s).withLatch op rp arg rom := by
  induction ms generalizing s with
  | nil => rfl
  | cons m ms ih =>
    have hstep := microStep_withLatch s op rp arg rom (m := m) fun hm => harg (by simp [hm])
    have hseq : (microStep m (s.withLatch op rp arg rom)).seq = (microStep m s).seq := by rw [hstep]; rfl
    by_cases hq : (microStep m s).seq = .idle
    · rw [runCode_cons_of_idle hq, runCode_cons_of_idle (hseq.trans hq), hstep]
    · rw [runCode_cons_of_busy hq, runCode_cons_of_busy (by rwa [hseq]), hstep]
      exact ih _ fun hm => by simpa using harg (List.mem_cons_of_mem _ hm)

end

/-- Only the code of `SetResolution` keeps a resolution (42_ds18b20 R193). -/
theorem eq_setResolution_of_keepResolution_mem_code {s : State} {op : WireCmd}
    (h : .keepResolution ∈ s.code op) : op = .setResolution := by
  obtain ⟨k, hk⟩ := List.mem_iff_getElem?.1 h
  simpa [Micro.allowedIn] using (code_position hk).1

/-- The code of a command reads of the latch the bytes it selects, for all but `ReadAddress`, and the argument,
for `SetResolution` (30_encoding R92). -/
theorem commandCode_congr {op : WireCmd} {rp rp' : Bool} {rom rom' : RomId} {arg arg' : Word}
    (hselect : op ≠ .readAddress → selectBytes rp' rom' = selectBytes rp rom)
    (harg : op = .setResolution → arg' = arg) :
    commandCode op rp' rom' arg' = commandCode op rp rom arg := by
  cases op <;> simp_all [commandCode, selectCode]

/-- Another latch that gives the command in flight the operands it reads makes no difference to it. -/
theorem runOut_withLatch {s : State} {rp : Bool} {arg : Word} {rom : RomId} (op : BitVec 4)
    (hread : ∀ cmd k, s.seq = .busy cmd k →
      (cmd ≠ .readAddress → selectBytes rp rom = selectBytes s.cmdRp s.cmdRom) ∧
      (cmd = .setResolution → arg = s.cmdArg)) :
    runOut (s.withLatch op rp arg rom) = (runOut s).withLatch op rp arg rom := by
  cases hq : s.seq with
  | idle => rw [runOut_of_idle hq, runOut_of_idle (s := s.withLatch op rp arg rom) hq]
  | busy cmd k =>
    obtain ⟨hselect, harg⟩ := hread cmd k hq
    have hcode : (s.withLatch op rp arg rom).code cmd = s.code cmd := commandCode_congr hselect harg
    have hkeep : .keepResolution ∈ (s.code cmd).drop k → arg = s.cmdArg := fun hm =>
      harg (eq_setResolution_of_keepResolution_mem_code (List.mem_of_mem_drop hm))
    have hrun := runCode_withLatch s op rp arg rom hkeep
    have hq' : (s.withLatch op rp arg rom).seq = .busy cmd k := hq
    simpa only [runOut, hq, hq', hcode] using hrun

/-- The ROM id an instruction selects by, if it is one that selects (30_encoding R100). -/
def romOperand : Instr → Option RomId
  | .setResolution rid _ | .requestTemperature rid | .readTemperature rid => rid
  | _ => none

/-- The argument of an instruction, if it has one (30_encoding R100). -/
def argOperand : Instr → Word
  | .setResolution _ v | .qConfigure v | .setPosition v => v
  | _ => 0

/-- The first step of a wire command latches the operands the rest of its code reads. -/
theorem beginInstr_operands {i : Instr} {s : State} {cmd : WireCmd} {k : Nat}
    (hq : (beginInstr i s).seq = .busy cmd k) :
    (cmd ≠ .readAddress →
      selectBytes (beginInstr i s).cmdRp (beginInstr i s).cmdRom = selectedBytes (romOperand i)) ∧
    (cmd = .setResolution → (beginInstr i s).cmdArg = argOperand i) := by
  rcases beginInstr_cases i s with ⟨hidle, -⟩ | ⟨-, hcase⟩
  · rw [hidle] at hq; cases hq
  · rcases hcase with ⟨rfl, he⟩ | ⟨rid, bits, rfl, -, he⟩ | ⟨rid, rfl, he⟩ | ⟨rid, rfl, he⟩
    all_goals
      rw [he] at hq ⊢
      cases hq
    · simp
    · exact ⟨fun _ => selectBytes_latch rid s, fun _ => rfl⟩
    · exact ⟨fun _ => selectBytes_latch rid s, by simp⟩
    · exact ⟨fun _ => selectBytes_latch rid s, by simp⟩

/-- Another latch before an operation is that latch after it: the operation reads none of it and writes none. -/
def IgnoresLatch (f : State → State) : Prop :=
  ∀ (s : State) (op : BitVec 4) (rp : Bool) (arg : Word) (rom : RomId),
    f (s.withLatch op rp arg rom) = (f s).withLatch op rp arg rom

theorem whenConfigured_ignoresLatch {go : State → State} (hgo : IgnoresLatch go) :
    IgnoresLatch (whenConfigured go) := by
  intro s op rp arg rom
  by_cases hc : s.owState = .created
  · have hc' : (s.withLatch op rp arg rom).owState = .created := hc
    simp only [whenConfigured, hc, hc', if_true]
    rfl
  · have hc' : (s.withLatch op rp arg rom).owState ≠ .created := hc
    simp only [whenConfigured, hc, hc', if_false]
    exact hgo s op rp arg rom

theorem whenArmed_ignoresLatch {go : State → State} (hgo : IgnoresLatch go) : IgnoresLatch (whenArmed go) := by
  intro s op rp arg rom
  have hstate : (s.withLatch op rp arg rom).qState = s.qState := rfl
  simp only [whenArmed, hstate]
  cases s.qState with
  | created | failed => rfl
  | ready => exact hgo s op rp arg rom

theorem startQConfigure_ignoresLatch (p : Word) : IgnoresLatch (startQConfigure p) := by
  intro s op rp arg rom
  have hcfg : (s.withLatch op rp arg rom).cfg = s.cfg := rfl
  simp only [startQConfigure, hcfg]
  cases s.cfg.edgeIrqSupported <;> rfl

/-- A command latches a `rom_id` over the one of the word; `None` leaves the bytes there (30_encoding R100). -/
theorem latchRomId_withLatch (rid : Option RomId) (s : State) (op : BitVec 4) (rp : Bool) (arg : Word)
    (rom : RomId) :
    latchRomId rid (s.withLatch op rp arg rom) =
      (latchRomId rid s).withLatch op rid.isSome arg (rid.getD rom) := by
  cases rid <;> rfl

/-- The first step of a command reads none of the latch. -/
theorem beginInstr_withLatch (i : Instr) (s : State) (op : BitVec 4) (rp : Bool) (arg : Word) (rom : RomId) :
    ∃ rp' arg' rom',
      beginInstr i (s.withLatch op rp arg rom) = (beginInstr i s).withLatch op rp' arg' rom' := by
  have henter (cmd : WireCmd) : IgnoresLatch (whenConfigured (enter cmd)) :=
    whenConfigured_ignoresLatch fun _ _ _ _ _ => rfl
  cases i with
  | setResolution rid bits =>
    have hrange : IgnoresLatch fun s => if bitsInRange bits then enter .setResolution s else complete 0 s := by
      intro s op rp arg rom
      cases bitsInRange bits <;> rfl
    refine ⟨rid.isSome, bits, rid.getD rom, ?_⟩
    rw [beginInstr, startSetResolution, latchRomId_withLatch]
    exact whenConfigured_ignoresLatch hrange (latchArg bits (latchRomId rid s)) op _ bits _
  | requestTemperature rid =>
    refine ⟨rid.isSome, arg, rid.getD rom, ?_⟩
    rw [beginInstr, startRequestTemperature, latchRomId_withLatch]
    exact henter _ _ _ _ _ _
  | readTemperature rid =>
    refine ⟨rid.isSome, arg, rid.getD rom, ?_⟩
    rw [beginInstr, startReadTemperature, latchRomId_withLatch]
    exact henter _ _ _ _ _ _
  | readAddress => exact ⟨rp, arg, rom, henter _ _ _ _ _ _⟩
  | qConfigure p => exact ⟨rp, arg, rom, startQConfigure_ignoresLatch p _ _ _ _ _⟩
  | position =>
    have hread : IgnoresLatch fun s => complete (data32 (positionOf s.counter s.precision)) s :=
      fun _ _ _ _ _ => rfl
    exact ⟨rp, arg, rom, whenArmed_ignoresLatch hread s op rp arg rom⟩
  | setPosition v =>
    have hwrite : IgnoresLatch fun s => complete 0 { s with counter := v * s.precision } :=
      fun _ _ _ _ _ => rfl
    exact ⟨rp, arg, rom, whenArmed_ignoresLatch hwrite s op rp arg rom⟩
  | owConfigure | reserved0 | reserved67 _ | reservedB | reservedCF _ => exact ⟨rp, arg, rom, rfl⟩

/-- The meaning of a command does not read the latch. -/
theorem runOut_beginInstr_withLatch (i : Instr) (s : State) (op : BitVec 4) (rp : Bool) (arg : Word)
    (rom : RomId) :
    ∃ rp' arg' rom', runOut (beginInstr i (s.withLatch op rp arg rom)) =
      (runOut (beginInstr i s)).withLatch op rp' arg' rom' := by
  obtain ⟨rp', arg', rom', hbegin⟩ := beginInstr_withLatch i s op rp arg rom
  refine ⟨rp', arg', rom', (congrArg runOut hbegin).trans (runOut_withLatch op fun cmd k hq => ?_)⟩
  have hq' : (beginInstr i (s.withLatch op rp arg rom)).seq = .busy cmd k := by rw [hbegin]; exact hq
  obtain ⟨hselect, harg⟩ := beginInstr_operands hq
  obtain ⟨hselect', harg'⟩ := beginInstr_operands hq'
  rw [hbegin] at hselect' harg'
  exact ⟨fun h => (hselect' h).trans (hselect h).symm, fun h => (harg' h).trans (harg h).symm⟩

/-- Settles O3: the two words decode to one instruction, whose meaning does not read the latch. -/
theorem ignoredBitsDoNotMatter : Obligations.IgnoredBitsDoNotMatter := by
  intro w w' rest s hagree
  have hdecode := decode_congr hagree
  have haccept : accept w' rest s = (accept w rest s).withLatch w'.op w'.rp w'.arg w'.rom := rfl
  obtain ⟨rp, arg, rom, hrun⟩ :=
    runOut_beginInstr_withLatch (decode w) (accept w rest s) w'.op w'.rp w'.arg w'.rom
  refine ⟨hdecode, _, _, exec_eq_runOut _ _, exec_eq_runOut _ _, ?_⟩
  rw [← hdecode, haccept, hrun]
  rfl

/-! ### When a word is accepted (O6, O9) -/

/-- Settles O6: the step accepts the word, and the fields it latches are those bits of it. -/
theorem stepRunsTheDecodedCommand : Obligations.StepRunsTheDecodedCommand :=
  fun _ _ _ hrst hev hq hvalid hcmds => step_accept_whole hrst hq hvalid hcmds hev

theorem cmdReady_eq_false_iff (s : State) : s.cmdReady = false ↔ s.seq ≠ .idle ∨ s.rspValid = true := by
  simp [State.cmdReady, State.busy, imp_iff_not_or]

/-- Settles O9: with no event due, only the command port takes a word and writes the latch, and only Idle with no
response pending. -/
theorem noAcceptUnlessReady : Obligations.NoAcceptUnlessReady := by
  intro s t hp hready hstep
  rw [cmdReady_eq_false_iff] at hready
  rcases step_cases hstep with
    ⟨e, es, hev, -⟩ | ⟨-, -, rfl⟩ | ⟨-, -, op, k, m, -, -, rfl⟩ | ⟨-, -, -, -, rfl⟩ |
    ⟨-, -, -, -, -, rfl⟩ | ⟨w, rest, -, -, hq, hvalid, -⟩ | ⟨w, rest, -, -, hq, hvalid, -⟩
  · rw [popDue_of_due hev] at hp; cases hp
  · simp
  · simp
  · simp
  · simp
  · simp [hq, hvalid] at hready
  · simp [hq, hvalid] at hready

/-! ### How a command ends (O18, O21) -/

/-- The micro-operation a wire command completes with (42_ds18b20 R192, R193, R194, R196). -/
def WireCmd.ending : WireCmd → Micro
  | .readAddress => .completeRom
  | .setResolution | .requestTemperature => .completeZero
  | .readTemperature => .completeTemp

/-- The code of a wire command is a body, which does not complete it, and then its ending. -/
theorem commandCode_eq_body_ending (op : WireCmd) (rp : Bool) (rom : RomId) (arg : Word) :
    ∃ body, commandCode op rp rom arg = body ++ [op.ending] ∧ IsBody op body := by
  obtain ⟨body, last, hcode, hbody, -⟩ := commandCode_eq_body op rp rom arg
  have hlast : (commandCode op rp rom arg).getLast? = some op.ending := by
    cases op <;> simp [commandCode, WireCmd.ending]
  rw [hcode, List.getLast?_concat, Option.some.injEq] at hlast
  exact ⟨body, hlast ▸ hcode, hbody⟩

/-- Code that completes the command at its end and not before ends with an error or with that completion. -/
theorem runCode_end {ms : List Micro} {last : Micro} (hbody : ∀ m ∈ ms, m.completes = false)
    (hlast : last.completes = true) {s : State} (hs : s.seq ≠ .idle) :
    ∃ u, (∃ kind, runCode (ms ++ [last]) s = raise kind u) ∨
      runCode (ms ++ [last]) s = microStep last u := by
  induction ms generalizing s with
  | nil =>
    rcases microStep_cases last s with ⟨-, d, hd⟩ | ⟨kind, -, hraise⟩ | ⟨hnot, -⟩
    · exact ⟨s, .inr (runCode_cons_of_idle (by rw [hd]; rfl) [])⟩
    · exact ⟨s, .inr (runCode_cons_of_idle (by rw [hraise]; rfl) [])⟩
    · rw [hlast] at hnot; cases hnot
  | cons m ms ih =>
    obtain ⟨hm, hms⟩ := List.forall_mem_cons.1 hbody
    rcases microStep_cases m s with ⟨hcompletes, -⟩ | ⟨kind, -, hraise⟩ | ⟨-, hnext, -⟩
    · rw [hm] at hcompletes; cases hcompletes
    · refine ⟨s, .inl ⟨kind, ?_⟩⟩
      rw [List.cons_append, runCode_cons_of_idle (by rw [hraise]; rfl), hraise]
    · have hbusy : (microStep m s).seq ≠ .idle := by simpa [hnext] using hs
      rw [List.cons_append, runCode_cons_of_busy hbusy]
      exact ih hms hbusy

/-- A wire command ends with an error or with its ending. -/
theorem runOut_end {s : State} {op : WireCmd} (hq : s.seq = .busy op 0) :
    ∃ u, (∃ kind, runOut s = raise kind u) ∨ runOut s = microStep op.ending u := by
  obtain ⟨body, hcode, hbody⟩ := commandCode_eq_body_ending op s.cmdRp s.cmdRom s.cmdArg
  have hrun : runOut s = runCode (body ++ [op.ending]) s := by
    rw [← hcode]; simp [runOut, hq, State.code]
  rw [hrun]
  exact runCode_end (fun m hm => (hbody.allowed m hm).2) (by cases op <;> rfl) (by simp [hq])

/-- A first step that ends the command leaves a response. -/
theorem beginInstr_rspValid_of_idle {i : Instr} {s : State} (hq : (beginInstr i s).seq = .idle) :
    (beginInstr i s).rspValid = true := by
  rcases beginInstr_cases i s with ⟨-, hvalid⟩ | ⟨-, hcase⟩
  · exact hvalid
  · rcases hcase with ⟨-, he⟩ | ⟨rid, bits, -, -, he⟩ | ⟨rid, -, he⟩ | ⟨rid, -, he⟩ <;>
      (rw [he] at hq; cases hq)

/-- Settles O18: a command ends in its first step, or by the end of its code, and either way with a response. -/
theorem everyCommandEndsWithAResponse : Obligations.EveryCommandEndsWithAResponse := by
  intro i s
  refine ⟨_, exec_eq_runOut i s, ?_⟩
  cases hq : (beginInstr i s).seq with
  | idle => rw [runOut_of_idle hq]; exact ⟨beginInstr_rspValid_of_idle hq, hq⟩
  | busy op k =>
    obtain ⟨-, rfl, -⟩ := beginInstr_busy hq
    obtain ⟨u, ⟨kind, hend⟩ | hend⟩ := runOut_end hq
    · simp [hend]
    · cases op <;> simp [hend, WireCmd.ending, microStep]

/-- A 32-bit result, also a negative one, is extended by zeros (30_encoding R95). -/
theorem data32_upper (v : Word) : (data32 v).extractLsb' 32 32 = 0 := by
  ext j hj
  simp [data32]

/-- A command done by its first step answers data with a zero upper half (30_encoding R95). -/
theorem beginInstr_rspData_upper {i : Instr} {s : State} (hq : (beginInstr i s).seq = .idle) :
    (beginInstr i s).rspData.extractLsb' 32 32 = 0 := by
  cases i with
  | setResolution rid bits =>
    simp only [beginInstr, startSetResolution, whenConfigured] at hq ⊢
    (repeat' split) <;> simp_all
  | requestTemperature rid =>
    simp only [beginInstr, startRequestTemperature, whenConfigured] at hq ⊢; split <;> simp_all
  | readTemperature rid =>
    simp only [beginInstr, startReadTemperature, whenConfigured] at hq ⊢; split <;> simp_all
  | readAddress => simp only [beginInstr, startReadAddress, whenConfigured] at hq ⊢; split <;> simp_all
  | qConfigure p => simp only [beginInstr, startQConfigure]; split <;> simp
  | position => simp only [beginInstr, startPosition, whenArmed]; split <;> simp [data32_upper]
  | setPosition v => simp only [beginInstr, startSetPosition, whenArmed]; split <;> simp
  | owConfigure | reserved0 | reserved67 _ | reservedB | reservedCF _ =>
    simp [beginInstr, startOwConfigure, reservedOpcode]

/-- Settles O21: a command answers 0 or a 32-bit result, but for the id `ReadAddress` completes with. -/
theorem upperHalfOfResultIsZero : Obligations.UpperHalfOfResultIsZero := by
  intro i s t hi hexec
  rw [exec_eq_runOut] at hexec
  cases hexec
  cases hq : (beginInstr i s).seq with
  | idle => rw [runOut_of_idle hq]; exact beginInstr_rspData_upper hq
  | busy op k =>
    obtain ⟨hcmd, rfl, -⟩ := beginInstr_busy hq
    obtain ⟨u, ⟨kind, hend⟩ | hend⟩ := runOut_end hq
    · simp [hend]
    · cases op with
      | readAddress => cases i <;> simp_all [wireCmdOf]
      | setResolution | requestTemperature => simp [hend, WireCmd.ending, microStep]
      | readTemperature => simp [hend, WireCmd.ending, microStep, data32_upper]

/-! ### The reserved opcodes (O52) -/

open Laws.OpcodeField in
/-- The family `OpcodeField`, put together. -/
theorem encode_op_mem_row {i : Instr} (h : i.wellFormed = true) : (encode i).op ∈ rowOpcodes i := by
  cases i with
  | owConfigure => exact owConfigure h
  | readAddress => exact readAddress h
  | setResolution rid bits => exact setResolution rid bits h
  | requestTemperature rid => exact requestTemperature rid h
  | readTemperature rid => exact readTemperature rid h
  | qConfigure p => exact qConfigure p h
  | position => exact position h
  | setPosition v => exact setPosition v h
  | reserved0 => exact reserved0 h
  | reserved67 op => exact reserved67 op h
  | reservedB => exact reservedB h
  | reservedCF op => exact reservedCF op h

/-- The opcode of a word is one of the row of its instruction (30_encoding R96, R97). -/
theorem op_mem_row_decode (w : CmdWord) : w.op ∈ Laws.OpcodeField.rowOpcodes (decode w) := by
  have h := encode_op_mem_row (decode_wellFormed w)
  rwa [encode_decode_op] at h

/-- The rows of the reserved opcodes and no others (30_encoding R97). -/
theorem isReserved_iff_of_mem_row {i : Instr} {op : BitVec 4} (h : op ∈ Laws.OpcodeField.rowOpcodes i) :
    isReserved i = true ↔ op ∈ [0x0#4, 0x6#4, 0x7#4, 0xB#4, 0xC#4, 0xD#4, 0xE#4, 0xF#4] := by
  cases i <;> simp only [Laws.OpcodeField.rowOpcodes, List.mem_cons, List.not_mem_nil, or_false] at h
  case reserved67 => rcases h with rfl | rfl <;> simp [isReserved]
  case reservedCF => rcases h with rfl | rfl | rfl | rfl <;> simp [isReserved]
  all_goals subst h; simp [isReserved]

/-- A reserved opcode is answered in its first step (30_encoding R97). -/
theorem beginInstr_of_isReserved {i : Instr} (h : isReserved i = true) (s : State) :
    beginInstr i s = raise .unsupported s := by
  cases i with
  | reserved0 | reserved67 _ | reservedB | reservedCF _ => rfl
  | _ => cases h

/-- With the line released and the sequencer Idle an error writes the response only. -/
theorem raise_of_idle {s : State} (hq : s.seq = .idle) (hline : s.dqOe = false) (kind : Status) :
    raise kind s = { s with rspValid := true, rspStatus := kind, rspData := 0 } := by
  simp [raise, hq, hline]

/-- The machine takes a command that its first step ends in one step, whether or not events are to come. -/
theorem step_accept_of_idle {s : State} (hrst : s.rstN = true) (hp : popDue s = none) (hq : s.seq = .idle)
    (hvalid : s.rspValid = false) {w : CmdWord} {rest : List CmdWord} (hcmds : s.cmds = w :: rest)
    (hdone : (beginInstr (decode w) (accept w rest (tick s))).seq = .idle) :
    step s = .next (beginInstr (decode w) (accept w rest (tick s))) := by
  rcases (popDue_eq_none_iff s).1 hp with hev | ⟨n, e, es, hev⟩
  · rw [tick_of_nil hev] at hdone ⊢
    rw [step_accept_whole hrst hq hvalid hcmds hev, exec_eq_runOut, runOut_of_idle hdone]
  · exact step_accept_first hrst hq hvalid hcmds hev

/-- Settles O52: a reserved command is one error raised in its first step. -/
theorem reservedOpcodeResult : Obligations.ReservedOpcodeResult := by
  refine ⟨fun w => isReserved_iff_of_mem_row (op_mem_row_decode w), fun s i hi hq hline => ?_,
    fun s w rest hrst hp hq hline hvalid hcmds hi => ?_⟩
  · have hbegin := beginInstr_of_isReserved hi s
    rw [exec_eq_runOut, hbegin, runOut_of_idle (raise_seq _ _), raise_of_idle hq hline]
  · have hbegin := beginInstr_of_isReserved hi (accept w rest (tick s))
    rw [step_accept_of_idle hrst hp hq hvalid hcmds (by rw [hbegin]; rfl), hbegin,
      raise_of_idle (by simpa using hq) (by simpa using hline)]

/-! ### Words, bytes and tables (O5, O58, O59) -/

theorem rspWord_fields (s : State) :
    s.rspWord.extractLsb' 0 3 = s.rspStatus.code ∧ s.rspWord.extractLsb' 3 5 = 0 ∧
      s.rspWord.extractLsb' 8 64 = s.rspData := by
  unfold State.rspWord
  refine ⟨?_, ?_, ?_⟩
  · rw [BitVec.extractLsb'_append_eq_of_add_le (by decide), BitVec.extractLsb'_eq_self]
  · rw [BitVec.extractLsb'_append_eq_of_le (by decide), BitVec.extractLsb'_append_eq_of_add_le (by decide)]
    rfl
  · rw [BitVec.extractLsb'_append_eq_of_le (by decide), BitVec.extractLsb'_append_eq_of_le (by decide)]
    exact BitVec.extractLsb'_eq_self

/-- Settles O5: the word is an append of its three fields; the codes by the kinds there are. -/
theorem responseWordLayout : Obligations.ResponseWordLayout := by
  refine ⟨rspWord_fields, rfl, rfl, rfl, rfl, rfl, rfl, fun s => ?_⟩
  cases s.rspStatus <;> decide

/-- The four operands in range (30_encoding R100). -/
theorem eq_of_range {r : Word} (hlo : 9 ≤ r.toInt) (hhi : r.toInt ≤ 12) :
    r = 9 ∨ r = 10 ∨ r = 11 ∨ r = 12 := by
  have hint : r.toInt = 9 ∨ r.toInt = 10 ∨ r.toInt = 11 ∨ r.toInt = 12 := by omega
  simp only [← BitVec.toInt_inj]
  exact hint

/-- Settles O58: four operands to look at; the code of `SetResolution` sends the byte as the last of four. -/
theorem configurationBytes : Obligations.ConfigurationBytes := by
  refine ⟨by decide, by decide, by decide, by decide, fun r hlo hhi => ?_, fun rp rom r => ?_⟩
  · rcases eq_of_range hlo hhi with rfl | rfl | rfl | rfl <;> decide
  · simp [commandCode, writeBytesCode]

/-- Settles O59: sixteen entries, evaluated. -/
theorem lookupTable : Obligations.LookupTable := by
  unfold Obligations.LookupTable
  decide

end Sys2Proof.Machine

/-! PROOF. The family 40_onewire_link: the slots of a byte being written (O38), and the answers of the wire (O35). -/

namespace Sys2Proof.Machine

/-- In a concatenation of pieces of one length `k`, entry `k * j + i` is entry `i` of piece `j`. -/
theorem getElem?_flatMap_of_length {α β : Type} {f : α → List β} {k : Nat} (hf : ∀ a, (f a).length = k)
    {as : List α} {j i : Nat} {a : α} (ha : as[j]? = some a) (hi : i < k) :
    (as.flatMap f)[k * j + i]? = (f a)[i]? := by
  induction as generalizing j with
  | nil => cases ha
  | cons b as ih =>
    rw [List.flatMap_cons]
    cases j with
    | zero =>
      obtain rfl : b = a := Option.some.inj ha
      rw [Nat.mul_zero, Nat.zero_add, List.getElem?_append_left (by rwa [hf])]
    | succ j =>
      have hj : k * (j + 1) + i = (f b).length + (k * j + i) := by rw [hf, Nat.mul_succ]; omega
      rw [hj, List.getElem?_append_right (Nat.le_add_right ..), Nat.add_sub_cancel_left]
      exact ih ha

/-! ### The write slots of a byte (R135, R136) -/

@[simp] theorem writeBitCode_length (b : Bool) : (writeBitCode b).length = 4 := by cases b <;> rfl

/-- Operation `j` of slot `i` is operation `j` of the write of bit `i`. -/
theorem writeByteCode_slot (b : Byte) {i j : Nat} (hi : i < 8) (hj : j < 4) :
    (writeByteCode b)[4 * i + j]? = (writeBitCode (b.getLsbD i))[j]? := by
  have hbits : writeByteCode b = (List.range 8).flatMap (fun i => writeBitCode (b.getLsbD i)) ++
      [.sent b] := rfl
  rw [hbits, List.getElem?_append_left (by simp [List.length_flatMap]; omega)]
  exact getElem?_flatMap_of_length (fun _ => writeBitCode_length _) (List.getElem?_range hi) hj

/-- Settles O38: slot `i` is the write of bit `i`, and that is written out for a 1 and for a 0. -/
theorem bytesGoLeastSignificantBitFirst : Obligations.BytesGoLeastSignificantBitFirst := by
  intro b i hi
  have hdrive : (writeByteCode b)[4 * i]? = (writeBitCode (b.getLsbD i))[0]? :=
    writeByteCode_slot b hi (j := 0) (by decide)
  rw [hdrive, writeByteCode_slot b hi (by decide), writeByteCode_slot b hi (by decide),
    writeByteCode_slot b hi (by decide)]
  cases b.getLsbD i <;> exact ⟨rfl, rfl, rfl, rfl⟩

/-! ### The answers of the wire (R141) -/

/-- The levels by which the wire answers the byte `b`, bit 0 first (R137). -/
def byteLevels (b : Byte) : List Bool := (List.range 8).map b.getLsbD

@[simp] theorem byteLevels_length (b : Byte) : (byteLevels b).length = 8 := by simp [byteLevels]

/-- The levels by which the wire answers a reset with presence `p` (low for a device), and then the bytes. -/
def answerLevels (p : Bool) (bytes : List Byte) : List Bool := (!p) :: bytes.flatMap byteLevels

theorem answerLevels_length (p : Bool) (bytes : List Byte) :
    (answerLevels p bytes).length = 8 * bytes.length + 1 := by
  simp [answerLevels, List.length_flatMap, Nat.mul_comm]

theorem levelAt_of_getElem? {answers : List Bool} {n : Nat} {level : Bool} (h : answers[n]? = some level) :
    levelAt answers n = level := by
  rw [levelAt, h]

theorem setBit_getLsbD (v : Byte) (i : Nat) (b : Bool) {j : Nat} (hj : j < 8) :
    (setBit v i b).getLsbD j = (v.getLsbD j || (decide (j = i) && b)) := by
  rcases lt_trichotomy j i with h | rfl | h
  · simp [setBit, hj, h, h.ne]
  · simp [setBit, hj]
  · have hpos : j - i ≠ 0 := by omega
    simp [setBit, hj, h.not_gt, h.ne', hpos]

/-- Bit `i` of a byte received is the level at its sample `i`. -/
theorem byteAt_getLsbD (answers : List Bool) (n : Nat) {i : Nat} (hi : i < 8) :
    (byteAt answers n).getLsbD i = levelAt answers (n + i) := by
  rw [byteAt, ← setBit_eight]
  simp only [setBit_getLsbD _ _ _ hi]
  interval_cases i <;> simp

/-- Byte `j` read after the reset is byte `j` of the answer. -/
theorem byteAt_answerLevels {p : Bool} {bytes : List Byte} {j : Nat} {b : Byte} (hb : bytes[j]? = some b) :
    byteAt (answerLevels p bytes) (1 + 8 * j) = b := by
  refine BitVec.eq_of_getLsbD_eq fun i hi => ?_
  rw [byteAt_getLsbD _ _ hi]
  refine levelAt_of_getElem? ?_
  rw [Nat.add_assoc, Nat.add_comm 1, answerLevels, List.getElem?_cons_succ,
    getElem?_flatMap_of_length byteLevels_length hb hi]
  simp [byteLevels, hi]

/-- Settles O35: one level for the presence bit and eight for each byte. -/
theorem everyAnswerIsPossible : Obligations.EveryAnswerIsPossible := by
  intro s p v
  refine ⟨answerLevels p v.toList, ?_, ?_, ?_⟩
  · exact Bool.not_not p
  · have hbyte (j : Nat) (hj : j < 9) :
        State.nextByte { s with answers := answerLevels p v.toList, samples := 0 } j = v[j] := by
      rw [State.nextByte, Nat.zero_add]
      exact byteAt_answerLevels (by simp [hj])
    rw [State.nextScratchpad]
    ext j hj
    rw [← hbyte j hj]
    interval_cases j <;> rfl
  · rw [answerLevels_length, Vector.length_toList]

end Sys2Proof.Machine

/-! PROOF. The family 41_quadrature: the three commands of the quadrature core (O40 to O43, O50), the edge event
and where it comes from (O44 to O47), and the laws of a row of samples (O48, O49). -/

namespace Sys2Proof.Machine

/-! ### The commands of the quadrature core (O40 to O43, O50) -/

section
variable {s : State}

theorem startQConfigure_of_supported (h : s.cfg.edgeIrqSupported = true) (p : Word) :
    startQConfigure p s = complete 0
      { s with encPuEn := true, precision := effectivePrecision p, abPrev := s.abNow, qState := .ready } :=
  if_pos h

theorem startQConfigure_of_unsupported (h : s.cfg.edgeIrqSupported = false) (p : Word) :
    startQConfigure p s = raise .unsupported { s with encPuEn := true, qState := .failed } :=
  if_neg (by simp [h])

theorem whenArmed_of_ready (h : s.qState = .ready) (go : State → State) : whenArmed go s = go s := by
  simp [whenArmed, h]

theorem whenArmed_of_created (h : s.qState = .created) (go : State → State) :
    whenArmed go s = raise .invalidConfig s := by
  simp [whenArmed, h]

theorem whenArmed_of_failed (h : s.qState = .failed) (go : State → State) :
    whenArmed go s = raise .unsupported s := by
  simp [whenArmed, h]

/-- `Position` in Ready: the quotient toward zero answered (41_quadrature R165). -/
theorem exec_position_of_ready (h : s.qState = .ready) :
    exec .position s = .next (complete (data32 (positionOf s.counter s.precision)) s) :=
  congrArg Host.Outcome.next (whenArmed_of_ready h _)

end

/-- The substitution of R164, by the operands it keeps. -/
theorem effectivePrecision_eq_ite_pos (p : Word) :
    effectivePrecision p = if 0 < p.toInt then p else 4 := by
  unfold effectivePrecision
  by_cases h : 0 < p.toInt
  · rw [if_pos h, if_neg (by omega)]
  · rw [if_neg h, if_pos (by omega)]

/-- Settles O43: the commands other than `Q.Configure` keep `q_state`, and the state check of `Position` and
`SetPosition` raises `Unsupported`. -/
theorem failedConfigureIsSticky : Obligations.FailedConfigureIsSticky := by
  intro i s hfailed
  refine ⟨_, exec_eq_runOut i s, ?_, fun hunsup => ?_, ?_⟩
  · rintro p rfl hsup
    rw [runOut_beginInstr_of_not_reachesWire rfl, beginInstr, startQConfigure_of_supported hsup]
    rfl
  · by_cases hq : ∃ p, i = .qConfigure p
    · obtain ⟨p, rfl⟩ := hq
      rw [runOut_beginInstr_of_not_reachesWire rfl, beginInstr, startQConfigure_of_unsupported (hunsup p rfl)]
      rfl
    · obtain ⟨-, -, -, hkept, -⟩ := runOut_quadrature (beginInstr i s)
      obtain ⟨-, hkept', -⟩ := (beginInstr_registers i s).1 fun p hp => hq ⟨p, hp⟩
      rw [hkept, hkept', hfailed]
  · rintro (rfl | ⟨v, rfl⟩)
    · rw [runOut_beginInstr_of_not_reachesWire rfl, beginInstr, startPosition, whenArmed_of_failed hfailed]
      exact ⟨rfl, rfl⟩
    · rw [runOut_beginInstr_of_not_reachesWire rfl, beginInstr, startSetPosition, whenArmed_of_failed hfailed]
      exact ⟨rfl, rfl⟩

/-- A product that does not overflow, divided again by its positive factor (41_quadrature R168). -/
theorem positionOf_mul {v p : Word} (hp : 1 ≤ p.toInt) (hlo : -2 ^ 31 ≤ v.toInt * p.toInt)
    (hhi : v.toInt * p.toInt ≤ 2 ^ 31 - 1) : positionOf (v * p) p = v := by
  have hexact : (v * p).toInt = v.toInt * p.toInt := by
    rw [BitVec.toInt_mul]
    exact Int.bmod_eq_of_le (by omega) (by omega)
  rw [positionOf, tdiv, hexact, Int.mul_tdiv_cancel _ (by omega), BitVec.ofInt_toInt]

/-- Settles O50: the store, and the quotient of what it stored. -/
theorem positionRoundTrip : Obligations.PositionRoundTrip := by
  intro s v hready hp hlo hhi
  refine ⟨_, _, exec_setPosition_of_ready hready v, exec_position_of_ready hready, rfl, ?_⟩
  exact congrArg data32 (positionOf_mul hp hlo hhi)

/-- Settles O40: the two cases of the parameter. -/
theorem qConfigureResult : Obligations.QConfigureResult := by
  refine ⟨fun w hop => by simp [decode, hop], fun s p => ⟨fun hsup => ?_, fun hunsup => ?_⟩⟩
  · rw [← effectivePrecision_eq_ite_pos]
    exact congrArg Host.Outcome.next (startQConfigure_of_supported hsup p)
  · exact congrArg Host.Outcome.next (startQConfigure_of_unsupported hunsup p)

/-- Settles O41: the three cases of the state check. -/
theorem positionResult : Obligations.PositionResult :=
  ⟨fun w hop => by simp [decode, hop], fun _ =>
    ⟨exec_position_of_ready,
      fun hcreated => congrArg Host.Outcome.next (whenArmed_of_created hcreated _),
      fun hfailed => congrArg Host.Outcome.next (whenArmed_of_failed hfailed _)⟩⟩

/-- Settles O42: the three cases of the state check; the product of words is that of their values. -/
theorem setPositionResult : Obligations.SetPositionResult := by
  refine ⟨fun w hop => by simp [decode, hop], fun s v => ⟨fun hready => ?_, fun hcreated => ?_, fun hfailed => ?_⟩⟩
  · rw [exec_setPosition_of_ready hready, BitVec.ofInt_mul, BitVec.ofInt_toInt, BitVec.ofInt_toInt]
    rfl
  · exact congrArg Host.Outcome.next (whenArmed_of_created hcreated _)
  · exact congrArg Host.Outcome.next (whenArmed_of_failed hfailed _)

/-! ### The edge event and the detector (O44 to O47) -/

/-- The index as R160 writes it: the history moved up by one sample, the oldest shifted out. -/
theorem edgeIndex_eq_shift (s : State) (a b : Bool) :
    edgeIndex s a b = (s.oldAb <<< 2) ||| (BitVec.ofBool a ++ BitVec.ofBool b).setWidth 4 := by
  unfold edgeIndex
  generalize s.oldAb = history
  revert history a b
  decide

theorem samplePair_eq_iff {a b a' b' : Bool} : samplePair a b = samplePair a' b' ↔ a = a' ∧ b = b' := by
  revert a b a' b'
  decide

/-- Settles O44: the index as a shift, the sum of words as that of their values. -/
theorem edgeEventResult : Obligations.EdgeEventResult := by
  intro s a b hready
  rw [land, deliverEdge_of_ready hready, BitVec.ofInt_add, BitVec.ofInt_toInt, ← edgeIndex_eq_shift]
  rfl

/-- Settles O45: an entry of the table is one of the three. -/
theorem edgeEventBound : Obligations.EdgeEventBound :=
  fun s a b => ⟨lut (edgeIndex s a b), lut_bound _, edgeEvent_counter a b s⟩

/-- Settles O46: the event is discarded, whether it comes from the detector or not. -/
theorem noEdgeEventOutsideReady : Obligations.NoEdgeEventOutsideReady := by
  intro s e he hready
  cases e with
  | qEdge a b => exact ⟨a, b, deliverEdge_of_not_ready hready a b⟩
  | pins a b =>
    refine ⟨a, b, ?_⟩
    by_cases hsame : samplePair a b = s.abPrev
    · exact changePins_of_same hsame
    · exact (changePins_of_changed hsame).trans (deliverEdge_of_not_ready hready a b)
  | present w | rspReady level | rst level => cases he

/-- Settles O47: armed, the detector compares the new levels with the present ones. -/
theorem pinChangeIsOneEdgeEvent : Obligations.PinChangeIsOneEdgeEvent := by
  intro s a b hready harmed
  have hsame : samplePair a b = s.abPrev ↔ a = s.encA ∧ b = s.encB := by
    rw [harmed, State.abNow, samplePair_eq_iff]
  by_cases hlevels : a = s.encA ∧ b = s.encB
  · rw [if_pos hlevels, land, changePins_of_same (hsame.2 hlevels), hlevels.1, hlevels.2]
  · rw [if_neg hlevels, land, changePins_of_changed (mt hsame.1 hlevels), deliverEdge_of_ready hready]
    rfl

/-! ### Rows of samples (O48, O49) -/

/-- The step from one sample to the next along the cycle `11 → 10 → 00 → 01 → 11`: 1 forward, −1 backward, 0 for
the same sample and for a diagonal (41_quadrature R169, R170). -/
def stepDir (p c : BitVec 2) : Int :=
  if forwardStep p c then 1 else if forwardStep c p then -1 else 0

/-- The place of a sample in the cycle, counted from `11` (41_quadrature R169). -/
def cyclePhase (p : BitVec 2) : Int :=
  match p.toNat with
  | 3 => 0
  | 2 => 1
  | 0 => 2
  | _ => 3

theorem netSteps_cons (p : BitVec 2) (ab : Bool × Bool) (rest : List (Bool × Bool)) :
    netSteps p (ab :: rest) =
      stepDir p (samplePair ab.1 ab.2) + netSteps (samplePair ab.1 ab.2) rest := rfl

/-- The table counts against the cycle (30_encoding R108, R109). -/
theorem lut_append (p c : BitVec 2) : lut (p ++ c) = -stepDir p c := by
  revert p c
  decide

theorem stepDir_swap (p c : BitVec 2) : stepDir c p = -stepDir p c := by
  revert p c
  decide

/-- A legal step moves the place in the cycle by one, up to whole turns. -/
theorem stepDir_modEq_phase {p c : BitVec 2} (h : (forwardStep p c || forwardStep c p) = true) :
    stepDir p c ≡ cyclePhase c - cyclePhase p [ZMOD 4] := by
  revert p c
  decide

/-- An edge event moves the counter against the cycle. -/
theorem edgeEvent_counter_stepDir (a b : Bool) (s : State) :
    (edgeEvent a b s).counter = s.counter + BitVec.ofInt 32 (-stepDir s.currentSample (samplePair a b)) := by
  rw [edgeEvent_counter, ← lut_append]
  rfl

@[simp] theorem edgeEvent_currentSample (a b : Bool) (s : State) :
    (edgeEvent a b s).currentSample = samplePair a b := by
  rw [State.currentSample, edgeEvent_oldAb, edgeIndex,
    BitVec.extractLsb'_append_eq_of_add_le (by decide), BitVec.extractLsb'_eq_self]

/-- A row of edge events moves the counter by the net steps against the cycle, whatever the samples are. -/
theorem edgeEvents_counter (samples : List (Bool × Bool)) (s : State) :
    (edgeEvents samples s).counter = s.counter + BitVec.ofInt 32 (-netSteps s.currentSample samples) := by
  induction samples generalizing s with
  | nil => simp [edgeEvents, netSteps]
  | cons ab rest ih =>
    calc (edgeEvents (ab :: rest) s).counter
        = (edgeEvents rest (edgeEvent ab.1 ab.2 s)).counter := rfl
      _ = s.counter + BitVec.ofInt 32 (-stepDir s.currentSample (samplePair ab.1 ab.2)) +
            BitVec.ofInt 32 (-netSteps (samplePair ab.1 ab.2) rest) := by
          rw [ih, edgeEvent_currentSample, edgeEvent_counter_stepDir]
      _ = s.counter + BitVec.ofInt 32 (-netSteps s.currentSample (ab :: rest)) := by
          rw [BitVec.add_assoc, ← BitVec.ofInt_add, netSteps_cons, Int.neg_add]

/-- Over legal samples the net steps are the way from the first place in the cycle to the last, up to whole
turns. -/
theorem netSteps_modEq_phase {p : BitVec 2} {samples : List (Bool × Bool)} (h : legalSamples p samples = true) :
    netSteps p samples ≡ cyclePhase (lastSample p samples) - cyclePhase p [ZMOD 4] := by
  induction samples generalizing p with
  | nil => simp [netSteps, lastSample]
  | cons ab rest ih =>
    rw [legalSamples, Bool.and_eq_true] at h
    obtain ⟨hstep, hrest⟩ := h
    have hsum := (stepDir_modEq_phase hstep).add (ih hrest)
    rw [netSteps_cons, lastSample]
    convert hsum using 1
    omega

/-- Settles O48: the way round is a whole number of turns, and the counter follows the net steps. -/
theorem cycleLaw : Obligations.CycleLaw := by
  intro s samples hlegal hclosed
  have hturns := netSteps_modEq_phase hlegal
  rw [hclosed, Int.sub_self] at hturns
  obtain ⟨k, hk⟩ := Int.modEq_zero_iff_dvd.1 hturns
  refine ⟨k, hk, ?_⟩
  rw [edgeEvents_counter, hk, Int.neg_mul]

/-- A sample one bit away is a step of the cycle (30_encoding R109). -/
theorem stepDir_of_one_bit {a b a' b' : Bool} (h : a = a' ↔ b ≠ b') :
    stepDir (samplePair a b) (samplePair a' b') = 1 ∨ stepDir (samplePair a b) (samplePair a' b') = -1 := by
  revert a b a' b'
  decide

theorem stepDir_of_diagonal {a b a' b' : Bool} (ha : a ≠ a') (hb : b ≠ b') :
    stepDir (samplePair a b) (samplePair a' b') = 0 := by
  revert a b a' b'
  decide

/-- Settles O49: the step back is the opposite of the step, a step is not 0, a diagonal is no step. -/
theorem bounceLaw : Obligations.BounceLaw := by
  intro s a b a' b' hcur
  change s.currentSample = samplePair a b at hcur
  have hfirst := edgeEvent_counter_stepDir a' b' s
  rw [hcur] at hfirst
  refine ⟨fun hbit => ⟨?_, ?_⟩, fun ha hb => ?_⟩
  · rw [edgeEvent_counter_stepDir, edgeEvent_currentSample, hfirst, BitVec.add_assoc, ← BitVec.ofInt_add,
      stepDir_swap (samplePair a b), Int.neg_neg, Int.add_left_neg]
    simp
  · rw [hfirst]
    rcases stepDir_of_one_bit hbit with hd | hd <;> simp [hd]
  · rw [hfirst, stepDir_of_diagonal ha hb]
    simp

end Sys2Proof.Machine

/-! PROOF. The family 42_ds18b20: the checks before the wire (O27, O31), the presence check (O29), what a
command does on the wire (O30, O32, O33, O34, O37), and how every command ends (O20, O23, O28). -/

namespace Sys2Proof.Machine

/-! ### The checks before the wire (O27, O31) -/

theorem latchRomId_eq (rid : Option RomId) (s : State) :
    latchRomId rid s = { s with cmdRp := rid.isSome, cmdRom := rid.getD s.cmdRom } := by
  cases rid <;> rfl

/-- The state with the operands of a one-wire command latched (30_encoding R100). -/
def latchOperands (i : Instr) (s : State) : State :=
  match i with
  | .setResolution rid bits => latchArg bits (latchRomId rid s)
  | .requestTemperature rid | .readTemperature rid => latchRomId rid s
  | _ => s

theorem latchOperands_frame (i : Instr) (s : State) :
    latchOperands i s =
      { s with
        cmdRp := (latchOperands i s).cmdRp, cmdArg := (latchOperands i s).cmdArg
        cmdRom := (latchOperands i s).cmdRom } := by
  cases i with
  | setResolution rid bits | requestTemperature rid | readTemperature rid => cases rid <;> rfl
  | _ => rfl

section
variable {i : Instr} {s : State}

/-- The state check failed (42_ds18b20 R199). -/
theorem beginInstr_of_created (hi : checksOwState i = true) (hc : s.owState = .created) :
    beginInstr i s = raise .invalidConfig (latchOperands i s) := by
  cases i with
  | readAddress => exact if_pos hc
  | setResolution rid bits | requestTemperature rid | readTemperature rid =>
    exact if_pos (by simpa using hc)
  | _ => cases hi

/-- The checks passed: the first position of the wire command (42_ds18b20 R193, R199). -/
theorem beginInstr_of_reachesWire (h : reachesWire i s = true) :
    ∃ op, beginInstr i s = enter op (latchOperands i s) := by
  simp only [reachesWire, Bool.and_eq_true, bne_iff_ne] at h
  obtain ⟨⟨hi, hc⟩, hrange⟩ := h
  cases i with
  | readAddress => exact ⟨.readAddress, if_neg hc⟩
  | setResolution rid bits =>
    exact ⟨.setResolution, by simp [beginInstr, startSetResolution, whenConfigured, hc, hrange, latchOperands]⟩
  | requestTemperature rid => exact ⟨.requestTemperature, if_neg (by simpa using hc)⟩
  | readTemperature rid => exact ⟨.readTemperature, if_neg (by simpa using hc)⟩
  | _ => cases hi

theorem bitsInRange_iff (bits : Word) : bitsInRange bits = true ↔ 9 ≤ bits.toInt ∧ bits.toInt ≤ 12 := by
  simp [bitsInRange]

/-- The range check failed: done, with OK (42_ds18b20 R193). -/
theorem beginInstr_setResolution_of_out_of_range (hc : s.owState ≠ .created) (rid : Option RomId) {bits : Word}
    (hbits : bitsInRange bits = false) :
    beginInstr (.setResolution rid bits) s = complete 0 (latchOperands (.setResolution rid bits) s) := by
  simp [beginInstr, startSetResolution, whenConfigured, hc, hbits, latchOperands]

end

/-- Settles O27: one step, the same in every state. -/
theorem owConfigureResult : Obligations.OwConfigureResult :=
  ⟨fun w hop => by simp [decode, hop], fun _ => rfl⟩

/-- Settles O31: the range check is the command's first step. -/
theorem setResolutionOutOfRange : Obligations.SetResolutionOutOfRange := by
  intro s rid bits hc hout
  have hbits : bitsInRange bits = false := by
    rw [← Bool.not_eq_true, bitsInRange_iff]; omega
  rw [exec_eq_runOut, beginInstr_setResolution_of_out_of_range hc rid hbits, runOut_of_idle (complete_seq _ _),
    latchOperands, latchRomId_eq]
  rfl

/-! ### The presence check (O29) -/

/-- The code of every wire command is `ow_begin()` and the rest (42_ds18b20 R198). -/
theorem commandCode_eq_begin (op : WireCmd) (rp : Bool) (rom : RomId) (arg : Word) :
    ∃ rest, commandCode op rp rom arg = beginCode ++ rest := by
  cases op <;> simp only [commandCode, List.append_assoc] <;> exact ⟨_, rfl⟩

/-- With no presence pulse a wire command ends after its reset of the line (42_ds18b20 R198). -/
theorem runOut_of_absent {s : State} {op : WireCmd} (hq : s.seq = .busy op 0) (h : s.nextPresence = false) :
    runOut s = raise .notConnected (afterReset s) := by
  obtain ⟨rest, hcode⟩ := commandCode_eq_begin op s.cmdRp s.cmdRom s.cmdArg
  have hrun : runOut s = runCode (beginCode ++ rest) s := by
    simp [runOut, hq, State.code, hcode]
  rw [hrun, runCode_begin rest (by simp [hq]), h]
  rfl

/-- The presence bit is the wire's, whatever the command has latched (40_onewire_link R134). -/
theorem nextPresence_enter_latchOperands (op : WireCmd) (i : Instr) (s : State) :
    (enter op (latchOperands i s)).nextPresence = s.nextPresence := by
  rw [latchOperands_frame]; rfl

theorem runOut_beginInstr_of_absent {i : Instr} {s : State} (hwire : reachesWire i s = true)
    (h : s.nextPresence = false) :
    ∃ op, runOut (beginInstr i s) = raise .notConnected (afterReset (enter op (latchOperands i s))) := by
  obtain ⟨op, hbegin⟩ := beginInstr_of_reachesWire hwire
  refine ⟨op, ?_⟩
  rw [hbegin, runOut_of_absent rfl ((nextPresence_enter_latchOperands op i s).trans h)]

/-- Settles O29: the command ends right after its reset of the line. -/
theorem missingPresenceIsNotConnected : Obligations.MissingPresenceIsNotConnected := by
  intro i s hwire hpresence
  obtain ⟨op, hrun⟩ := runOut_beginInstr_of_absent hwire hpresence
  refine ⟨_, exec_eq_runOut i s, by rw [hrun]; rfl, ?_⟩
  rw [hrun, afterReset, applyAll_resetCode, nextPresence_enter_latchOperands, hpresence, latchOperands_frame]
  rfl

/-! ### With a device present: what a command does on the wire (O30, O32, O33, O34) -/

/-- The state after a reset of the line answered by a device, and these bytes sent. -/
def afterSending (bytes : List Byte) (s : State) : State :=
  { s with
    dqOe := false, dqSampled := levelAt s.answers s.samples, samples := s.samples + 1, presence := true
    trace := s.trace ++ .reset true :: sentAll bytes
    waited := s.waited + s.cfg.times.tRstl + s.cfg.times.tPds + s.cfg.times.tRstr +
      writeBytesTime s.cfg.times bytes
    seq := s.seq.bump (8 + 33 * bytes.length) }

/-- `ow_begin()` with a device present and bytes sent, in front of code (42_ds18b20 R198; 40_onewire_link
R136). -/
theorem runCode_begin_send {bytes : List Byte} (hne : bytes ≠ []) (ms : List Micro) {s : State}
    (hs : s.seq ≠ .idle) (hpresence : s.nextPresence = true) :
    runCode (beginCode ++ (writeBytesCode bytes ++ ms)) s = runCode ms (afterSending bytes s) := by
  have hbusy : (advance (afterReset s)).seq ≠ .idle := by simpa [afterReset, applyAll_resetCode] using hs
  rw [runCode_begin _ hs, if_pos hpresence, runCode_writeBytes bytes hne ms hbusy]
  simp [afterReset, applyAll_resetCode, advance, afterSending, hpresence]

theorem writeBytesCode_append (bs bs' : List Byte) (ms : List Micro) :
    writeBytesCode bs ++ (writeBytesCode bs' ++ ms) = writeBytesCode (bs ++ bs') ++ ms := by
  simp [writeBytesCode]

/-- The same of a selection and the bytes of a function command (40_onewire_link R139). -/
theorem runCode_begin_select_send (rid : Option RomId) (bytes : List Byte) (ms : List Micro) {s : State}
    (hs : s.seq ≠ .idle) (hpresence : s.nextPresence = true) :
    runCode (beginCode ++ (writeBytesCode (selectedBytes rid) ++ (writeBytesCode bytes ++ ms))) s =
      runCode ms (afterSending (selectedBytes rid ++ bytes) s) := by
  rw [writeBytesCode_append, runCode_begin_send (by simp [selectedBytes_ne_nil]) ms hs hpresence]

/-- The wire trace after a selection and the bytes of a function command, piece by piece. -/
theorem afterSending_select (rid : Option RomId) (bytes : List Byte) (s : State) :
    afterSending (selectedBytes rid ++ bytes) s =
      { afterSending (selectedBytes rid ++ bytes) s with
        trace := s.trace ++ [.reset true] ++ sentAll (selectedBytes rid) ++ sentAll bytes } := by
  simp [afterSending, sentAll]

/-- `ReadAddress` up to its CRC check: the state with the eight bytes received. -/
def romRead (s : State) : State :=
  applyAll readRomCode (afterSending [0x33] (enter .readAddress s))

/-- `ReadTemperature` up to its CRC check: the state with the nine bytes received. -/
def scratchpadRead (rid : Option RomId) (s : State) : State :=
  applyAll readScratchCode
    (afterSending (selectedBytes rid ++ [0xBE]) (enter .readTemperature (latchRomId rid s)))

theorem bytesAt_eight (s : State) : bytesAt s.answers (s.samples + 1) 8 = s.nextRom.toList := by
  simp [bytesAt, State.nextRom, State.nextByte]

theorem bytesAt_nine (s : State) : bytesAt s.answers (s.samples + 1) 9 = s.nextScratchpad.toList := by
  simp [bytesAt, State.nextScratchpad, State.nextByte]

/-- What the reads of `ReadAddress` write, but for the hidden registers and the position. -/
theorem romRead_frame (s : State) :
    ∃ q level byte time, romRead s =
      { s with
        romBuf := s.nextRom
        trace := s.trace ++ [.reset true, .sent 0x33] ++ receivedAll s.nextRom.toList
        presence := true, samples := s.samples + 65, dqOe := false
        seq := q, dqSampled := level, shiftReg := byte, waited := time } := by
  rw [romRead, applyAll_readRom, ← bytesAt_eight]
  exact ⟨_, _, _, _, rfl⟩

/-- The same of `ReadTemperature`. -/
theorem scratchpadRead_frame (rid : Option RomId) (s : State) :
    ∃ q level byte time, scratchpadRead rid s =
      { s with
        scratchpad := s.nextScratchpad
        trace := s.trace ++ [.reset true] ++ sentAll (selectedBytes rid) ++ [.sent 0xBE] ++
          receivedAll s.nextScratchpad.toList
        presence := true, samples := s.samples + 73, dqOe := false, cmdRp := rid.isSome
        cmdRom := rid.getD s.cmdRom, seq := q, dqSampled := level, shiftReg := byte, waited := time } := by
  rw [scratchpadRead, applyAll_readScratch, ← bytesAt_nine, afterSending_select, latchRomId_eq]
  exact ⟨_, _, _, _, rfl⟩

theorem romRead_romBuf (s : State) : (romRead s).romBuf = s.nextRom := by
  obtain ⟨q, level, byte, time, hread⟩ := romRead_frame s
  rw [hread]

theorem scratchpadRead_scratchpad (rid : Option RomId) (s : State) :
    (scratchpadRead rid s).scratchpad = s.nextScratchpad := by
  obtain ⟨q, level, byte, time, hread⟩ := scratchpadRead_frame rid s
  rw [hread]

/-- The end of `ReadAddress` (42_ds18b20 R192). -/
theorem runCode_endReadAddress {s : State} (hs : s.seq ≠ .idle) :
    runCode [.checkRom, .completeRom] s =
      if romValid s.romBuf then complete (bitsOfRom s.romBuf) s else raise .crcMismatch s := by
  rw [runCode_checkRom _ hs, runCode_cons_of_idle rfl]
  rfl

/-- The end of `ReadTemperature` (42_ds18b20 R196). -/
theorem runCode_endReadTemperature {s : State} (hs : s.seq ≠ .idle) :
    runCode [.checkScratch, .setOwState .ready, .completeTemp] s =
      if scratchpadValid s.scratchpad then
        complete (data32 (decodeTemp s.scratchpad[0] s.scratchpad[1])) { s with owState := .ready }
      else raise .crcMismatch s := by
  rw [runCode_checkScratch _ hs, runCode_cons_of_busy (by simpa [microStep] using hs),
    runCode_cons_of_idle rfl]
  rfl

theorem romValid_iff (r : RomId) : romValid r = true ↔ crc8 (r.toList.take 7) = r[7] := by
  simp [romValid]

theorem scratchpadValid_iff (v : Vector Byte 9) :
    scratchpadValid v = true ↔ crc8 (v.toList.take 8) = v[8] := by
  simp [scratchpadValid]

section
variable {s : State} (hc : s.owState ≠ .created) (hpresence : s.nextPresence = true)
include hc hpresence

/-- `ReadAddress` with a device present (42_ds18b20 R192). -/
theorem runOut_readAddress_of_present :
    runOut (beginInstr .readAddress s) =
      if romValid s.nextRom then complete (bitsOfRom s.nextRom) (romRead s)
      else raise .crcMismatch (romRead s) := by
  have hpresent : (enter .readAddress s).nextPresence = true := hpresence
  have hbusy : (romRead s).seq ≠ .idle := by simp [romRead, applyAll_readRom, afterSending]
  rw [beginInstr, runOut_startReadAddress hc,
    runCode_begin_send (by simp) _ (by simp) hpresent, runCode_readRom _ (by simp [afterSending]), ← romRead,
    runCode_endReadAddress hbusy, romRead_romBuf]

/-- `ReadTemperature` with a device present (42_ds18b20 R196). -/
theorem runOut_readTemperature_of_present (rid : Option RomId) :
    runOut (beginInstr (.readTemperature rid) s) =
      if scratchpadValid s.nextScratchpad then
        complete (data32 (decodeTemp s.nextScratchpad[0] s.nextScratchpad[1]))
          { scratchpadRead rid s with owState := .ready }
      else raise .crcMismatch (scratchpadRead rid s) := by
  have hpresent : (enter .readTemperature (latchRomId rid s)).nextPresence = true :=
    (nextPresence_enter_latchOperands _ (.readTemperature rid) s).trans hpresence
  have hbusy : (scratchpadRead rid s).seq ≠ .idle := by
    simp [scratchpadRead, applyAll_readScratch, afterSending]
  rw [beginInstr, runOut_startReadTemperature rid hc,
    runCode_begin_select_send rid _ _ (by simp) hpresent, runCode_readScratch _ (by simp [afterSending]),
    ← scratchpadRead, runCode_endReadTemperature hbusy]
  simp only [scratchpadRead_scratchpad]

/-- `RequestTemperature` with a device present (42_ds18b20 R194). -/
theorem runOut_requestTemperature_of_present (rid : Option RomId) :
    runOut (beginInstr (.requestTemperature rid) s) =
      complete 0
        { afterSending (selectedBytes rid ++ [0x44]) (enter .requestTemperature (latchRomId rid s)) with
          owState := .converting } := by
  have hpresent : (enter .requestTemperature (latchRomId rid s)).nextPresence = true :=
    (nextPresence_enter_latchOperands _ (.requestTemperature rid) s).trans hpresence
  rw [beginInstr, runOut_startRequestTemperature rid hc,
    runCode_begin_select_send rid _ _ (by simp) hpresent,
    runCode_cons_of_busy (by simp [microStep, afterSending]), runCode_cons_of_idle rfl]
  rfl

/-- `SetResolution` in range with a device present (42_ds18b20 R193). -/
theorem runOut_setResolution_of_present (rid : Option RomId) {bits : Word} (hbits : bitsInRange bits = true) :
    runOut (beginInstr (.setResolution rid bits) s) =
      complete 0
        { afterSending (selectedBytes rid ++ [0x4E, 0xFF, 0x00, configByte bits])
            (enter .setResolution (latchArg bits (latchRomId rid s))) with
          resolution := bits.setWidth 4 } := by
  have hpresent : (enter .setResolution (latchArg bits (latchRomId rid s))).nextPresence = true :=
    (nextPresence_enter_latchOperands _ (.setResolution rid bits) s).trans hpresence
  rw [beginInstr, runOut_startSetResolution rid bits hc hbits,
    runCode_begin_select_send rid _ _ (by simp) hpresent,
    runCode_cons_of_busy (by simp [microStep, afterSending]), runCode_cons_of_idle rfl]
  rfl

end

/-- Settles O30: the eight bytes read, and then the two outcomes of the CRC check. -/
theorem readAddressResult : Obligations.ReadAddressResult := by
  intro s hc hpresence
  refine ⟨_, exec_eq_runOut _ _, ?_⟩
  obtain ⟨q, level, byte, time, hread⟩ := romRead_frame s
  rw [runOut_readAddress_of_present hc hpresence, hread]
  by_cases hcrc : crc8 (s.nextRom.toList.take 7) = s.nextRom[7]
  · simp only [if_pos ((romValid_iff _).2 hcrc), if_pos hcrc]; rfl
  · simp only [if_neg (mt (romValid_iff _).1 hcrc), if_neg hcrc]; rfl

/-- Settles O34: the nine bytes read, and then the two outcomes of the CRC check. -/
theorem readTemperatureResult : Obligations.ReadTemperatureResult := by
  intro s rid hc hpresence
  refine ⟨_, exec_eq_runOut _ _, ?_⟩
  obtain ⟨q, level, byte, time, hread⟩ := scratchpadRead_frame rid s
  rw [runOut_readTemperature_of_present hc hpresence, hread]
  by_cases hcrc : crc8 (s.nextScratchpad.toList.take 8) = s.nextScratchpad[8]
  · simp only [if_pos ((scratchpadValid_iff _).2 hcrc), if_pos hcrc]; rfl
  · simp only [if_neg (mt (scratchpadValid_iff _).1 hcrc), if_neg hcrc]; rfl

/-- Settles O33: the bytes sent, and `ow_state` set. -/
theorem requestTemperatureResult : Obligations.RequestTemperatureResult := by
  intro s rid hc hpresence
  refine ⟨_, exec_eq_runOut _ _, ?_⟩
  rw [runOut_requestTemperature_of_present hc hpresence, afterSending_select, latchRomId_eq]
  rfl

/-- The configuration byte of an operand in range, as a sum (30_encoding R105). -/
theorem configByte_of_range {bits : Word} (hlo : 9 ≤ bits.toInt) (hhi : bits.toInt ≤ 12) :
    configByte bits = BitVec.ofNat 8 ((bits.toNat - 9) * 32 + 31) := by
  rcases eq_of_range hlo hhi with rfl | rfl | rfl | rfl <;> decide

/-- Settles O32: the bytes sent, and `resolution` kept. -/
theorem setResolutionResult : Obligations.SetResolutionResult := by
  intro s rid bits hc hpresence hlo hhi
  have hbits := (bitsInRange_iff bits).2 ⟨hlo, hhi⟩
  refine ⟨_, exec_eq_runOut _ _, ?_⟩
  rw [runOut_setResolution_of_present hc hpresence rid hbits, ← configByte_of_range hlo hhi,
    afterSending_select, latchRomId_eq]
  rfl

/-! ### A released line (O37) -/

/-- Eight samples high are the byte 0xFF (40_onewire_link R137). -/
theorem byteAt_of_high {answers : List Bool} {n : Nat} (h : ∀ i < 8, levelAt answers (n + i) = true) :
    byteAt answers n = 0xFF := by
  refine BitVec.eq_of_getLsbD_eq fun i hi => ?_
  rw [byteAt_getLsbD _ _ hi, h i hi]
  interval_cases i <;> rfl

/-- Settles O37: every byte is 0xFF, and rows of 0xFF do not validate. -/
theorem silentDeviceIsCrcMismatch : Obligations.SilentDeviceIsCrcMismatch := by
  intro s hc hpresence hhigh
  have hbyte (j : Nat) (hj : j < 9) : s.nextByte j = 0xFF :=
    byteAt_of_high fun i hi => by rw [Nat.add_assoc]; exact hhigh (8 * j + i) (by omega)
  have hrom : s.nextRom = Vector.replicate 8 0xFF := by
    simp only [State.nextRom, hbyte, Nat.reduceLT]; rfl
  have hscratch : s.nextScratchpad = Vector.replicate 9 0xFF := by
    simp only [State.nextScratchpad, hbyte, Nat.reduceLT]; rfl
  have hromBad : romValid (Vector.replicate 8 0xFF) = false := by decide +kernel
  have hscratchBad : scratchpadValid (Vector.replicate 9 0xFF) = false := by decide +kernel
  refine ⟨⟨_, exec_eq_runOut _ _, ?_⟩, fun rid => ⟨_, exec_eq_runOut _ _, ?_⟩⟩
  · rw [runOut_readAddress_of_present hc hpresence, hrom, hromBad]; rfl
  · rw [runOut_readTemperature_of_present hc hpresence, hscratch, hscratchBad]; rfl

/-! ### How every command ends (O20, O23, O28) -/

/-- The one-wire registers a failed command keeps (42_ds18b20 R201). -/
structure OneWireKept (s u : State) : Prop where
  owState : u.owState = s.owState
  resolution : u.resolution = s.resolution
  scratchpad : u.scratchpad = s.scratchpad
  romBuf : u.romBuf = s.romBuf

/-- The ways the command `i` ends that was accepted in the state `s` (60_exceptions R261, 42_ds18b20 R200, R201):
OK, with `ow_state` by the table; an error other than `CRCMismatch`, with the one-wire registers as before; a
`CRCMismatch` of either read, with the bytes as received. -/
inductive CommandEnd (i : Instr) (s : State) : State → Prop
  | ok {t : State} (hstatus : t.rspStatus = .ok) (how : t.owState = owStateAfterOk i s.owState) :
      CommandEnd i s t
  | failed {kind : Status} {u : State} (hok : kind ≠ .ok) (hcrc : kind ≠ .crcMismatch)
      (hcheck : checksOwState i = true → kind = .invalidConfig → s.owState = .created)
      (hkept : OneWireKept s u) :
      CommandEnd i s (raise kind u)
  | romMismatch (hi : i = .readAddress) : CommandEnd i s (raise .crcMismatch (romRead s))
  | scratchpadMismatch (rid : Option RomId) (hi : i = .readTemperature rid) :
      CommandEnd i s (raise .crcMismatch (scratchpadRead rid s))

section
variable {i : Instr} {s : State}

theorem latchOperands_keeps (i : Instr) (s : State) : OneWireKept s (latchOperands i s) := by
  rw [latchOperands_frame]
  exact ⟨rfl, rfl, rfl, rfl⟩

theorem beginInstr_commandEnd_of_checks (hi : checksOwState i = true) (h : reachesWire i s = false) :
    CommandEnd i s (beginInstr i s) := by
  by_cases hc : s.owState = .created
  · rw [beginInstr_of_created hi hc]
    exact .failed (by decide) (by decide) (fun _ _ => hc) (latchOperands_keeps i s)
  · cases i with
    | setResolution rid bits =>
      have hbits : bitsInRange bits = false := by simpa [reachesWire, checksOwState, hc] using h
      rw [beginInstr_setResolution_of_out_of_range hc rid hbits]
      exact .ok rfl (latchOperands_keeps _ s).owState
    | readAddress | requestTemperature rid | readTemperature rid =>
      simp [reachesWire, checksOwState, hc] at h
    | _ => cases hi

/-- A command that makes no state check of the one-wire core raises its errors in a state that core kept. -/
theorem commandEnd_raise (hi : checksOwState i = false) {kind : Status} {u : State} (hok : kind ≠ .ok)
    (hcrc : kind ≠ .crcMismatch) (hkept : OneWireKept s u) : CommandEnd i s (raise kind u) :=
  .failed hok hcrc (by simp [hi]) hkept

/-- The state check of the quadrature core and what it guards (41_quadrature R167). -/
theorem commandEnd_whenArmed (hi : checksOwState i = false) {go : State → State}
    (hgo : CommandEnd i s (go s)) : CommandEnd i s (whenArmed go s) := by
  cases hq : s.qState with
  | ready => rwa [whenArmed_of_ready hq]
  | created =>
    rw [whenArmed_of_created hq]
    exact commandEnd_raise hi (by decide) (by decide) ⟨rfl, rfl, rfl, rfl⟩
  | failed =>
    rw [whenArmed_of_failed hq]
    exact commandEnd_raise hi (by decide) (by decide) ⟨rfl, rfl, rfl, rfl⟩

theorem beginInstr_commandEnd_of_not_checks (hi : checksOwState i = false) :
    CommandEnd i s (beginInstr i s) := by
  cases i with
  | owConfigure => exact .ok rfl rfl
  | qConfigure p =>
    cases hsup : s.cfg.edgeIrqSupported with
    | true => rw [beginInstr, startQConfigure_of_supported hsup]; exact .ok rfl rfl
    | false =>
      rw [beginInstr, startQConfigure_of_unsupported hsup]
      exact commandEnd_raise hi (by decide) (by decide) ⟨rfl, rfl, rfl, rfl⟩
  | position => rw [beginInstr, startPosition]; exact commandEnd_whenArmed hi (.ok rfl rfl)
  | setPosition v => rw [beginInstr, startSetPosition]; exact commandEnd_whenArmed hi (.ok rfl rfl)
  | reserved0 | reserved67 _ | reservedB | reservedCF _ =>
    rw [beginInstr_of_isReserved rfl]
    exact commandEnd_raise hi (by decide) (by decide) ⟨rfl, rfl, rfl, rfl⟩
  | _ => cases hi

theorem runOut_commandEnd_of_absent (hwire : reachesWire i s = true) (h : s.nextPresence = false) :
    CommandEnd i s (runOut (beginInstr i s)) := by
  obtain ⟨op, hrun⟩ := runOut_beginInstr_of_absent hwire h
  rw [hrun, afterReset, applyAll_resetCode, latchOperands_frame]
  exact .failed (by decide) (by decide) (by simp) ⟨rfl, rfl, rfl, rfl⟩

theorem runOut_commandEnd_of_present (hwire : reachesWire i s = true) (h : s.nextPresence = true) :
    CommandEnd i s (runOut (beginInstr i s)) := by
  simp only [reachesWire, Bool.and_eq_true, bne_iff_ne] at hwire
  obtain ⟨⟨hi, hc⟩, hrange⟩ := hwire
  cases i with
  | readAddress =>
    rw [runOut_readAddress_of_present hc h]
    split
    · obtain ⟨q, level, byte, time, hread⟩ := romRead_frame s
      exact .ok rfl (by rw [hread]; rfl)
    · exact .romMismatch rfl
  | readTemperature rid =>
    rw [runOut_readTemperature_of_present hc h]
    split
    · exact .ok rfl rfl
    · exact .scratchpadMismatch rid rfl
  | requestTemperature rid =>
    rw [runOut_requestTemperature_of_present hc h]
    exact .ok rfl rfl
  | setResolution rid bits =>
    rw [runOut_setResolution_of_present hc h rid hrange, latchRomId_eq]
    exact .ok rfl rfl
  | _ => cases hi

end

/-- Every command, in every state, ends in one of these ways. -/
theorem exec_commandEnd {i : Instr} {s t : State} (h : exec i s = .next t) : CommandEnd i s t := by
  rw [exec_eq_runOut] at h
  cases h
  cases hwire : reachesWire i s with
  | false =>
    rw [runOut_beginInstr_of_not_reachesWire hwire]
    cases hi : checksOwState i with
    | true => exact beginInstr_commandEnd_of_checks hi hwire
    | false => exact beginInstr_commandEnd_of_not_checks hi
  | true =>
    cases hpresence : s.nextPresence with
    | false => exact runOut_commandEnd_of_absent hwire hpresence
    | true => exact runOut_commandEnd_of_present hwire hpresence

/-- Before any `OW.Configure` a command that checks `ow_state` is done by that check (42_ds18b20 R199). -/
theorem exec_of_created {i : Instr} {s : State} (hi : checksOwState i = true) (hc : s.owState = .created) :
    exec i s = .next (raise .invalidConfig (latchOperands i s)) := by
  rw [exec_eq_runOut, beginInstr_of_created hi hc, runOut_of_idle (raise_seq _ _)]

/-- Once configured, no command that checks `ow_state` ends with the error of that check (42_ds18b20 R199). -/
theorem status_ne_invalidConfig_of_exec {i : Instr} {s t : State} (hexec : exec i s = .next t)
    (hi : checksOwState i = true) (hc : s.owState ≠ .created) : t.rspStatus ≠ .invalidConfig := by
  cases exec_commandEnd hexec with
  | ok hok => simp [hok]
  | failed _ _ hcheck => exact fun hkind => hc (hcheck hi hkind)
  | romMismatch | scratchpadMismatch => simp

/-- Settles O28: the state check raises before anything else is done, and nothing after it raises that error. -/
theorem oneWireCommandBeforeConfigure : Obligations.OneWireCommandBeforeConfigure := by
  refine ⟨fun i s hi hc => ⟨_, exec_of_created hi hc, ?_⟩, fun i s hi hc => ?_⟩
  · rw [latchOperands_frame]
    exact ⟨rfl, rfl⟩
  · exact ⟨_, exec_eq_runOut i s, status_ne_invalidConfig_of_exec (exec_eq_runOut i s) hi hc⟩

/-- Settles O20: the ways to fail, and the registers of the bytes read. -/
theorem failedCommandLeavesBehind : Obligations.FailedCommandLeavesBehind := by
  intro i s t hexec hfail
  cases exec_commandEnd hexec with
  | ok hstatus => exact absurd hstatus hfail
  | failed _ hcrc _ hkept =>
    exact ⟨rfl, rfl, rfl, rfl, hkept.owState, hkept.resolution, fun _ => ⟨hkept.scratchpad, hkept.romBuf⟩,
      fun h => absurd h hcrc⟩
  | romMismatch hi =>
    obtain ⟨q, level, byte, time, hread⟩ := romRead_frame s
    rw [hread]
    exact ⟨rfl, rfl, rfl, rfl, rfl, rfl, fun h => absurd rfl h, fun _ => .inl ⟨hi, rfl, rfl⟩⟩
  | scratchpadMismatch rid hi =>
    obtain ⟨q, level, byte, time, hread⟩ := scratchpadRead_frame rid s
    rw [hread]
    exact ⟨rfl, rfl, rfl, rfl, rfl, rfl, fun h => absurd rfl h, fun _ => .inr ⟨rid, hi, rfl, rfl⟩⟩

/-- `ow_state` after a command: by the table if it ends OK, as before if not (42_ds18b20 R200). -/
theorem owState_of_exec {i : Instr} {s t : State} (hexec : exec i s = .next t) :
    t.owState = if t.rspStatus = .ok then owStateAfterOk i s.owState else s.owState := by
  by_cases hok : t.rspStatus = .ok
  · rw [if_pos hok]
    cases exec_commandEnd hexec with
    | ok _ how => exact how
    | failed hkind => exact absurd hok hkind
    | romMismatch | scratchpadMismatch => cases hok
  · rw [if_neg hok]
    obtain ⟨-, -, -, -, how, -⟩ := failedCommandLeavesBehind i s t hexec hok
    exact how

/-- Settles O23: the table, and the state check that rejects in Created. -/
theorem owStateTransitions : Obligations.OwStateTransitions := by
  intro i s
  have hexec := exec_eq_runOut i s
  refine ⟨_, hexec, owState_of_exec hexec, fun hi hc => ?_⟩
  rw [exec_of_created hi hc] at hexec
  rw [← Host.Outcome.next.inj hexec]
  simp

end Sys2Proof.Machine

/-! PROOF. The family 43_crc8_and_decode: `crc8` byte by byte (O55), the CRC law (O53), single-bit flips (O54) and
the reference values (O56); the properties of `decode_temp` (O57). -/

namespace Sys2Proof.Machine

/-! ### One byte into the register (O55) -/

/-- The polynomial is applied when the low bits of register and data differ (43_crc8_and_decode R230). -/
theorem crcBit_eq_ite (c d : Byte) :
    crcBit c d = if (c.getLsbD 0 ^^ d.getLsbD 0) then (c >>> 1) ^^^ 0x8C#8 else c >>> 1 := by
  have hlow : ∀ x : Byte, x &&& 1#8 = 1#8 ↔ x.getLsbD 0 = true := by decide
  rw [crcBit, ← BitVec.getLsbD_xor]
  simp only [hlow]

/-- A round on register and data taken together differs by the data bits still to come. -/
theorem crcBit_xor_zero (c d : Byte) : crcBit (c ^^^ d) 0#8 = crcBit c d ^^^ (d >>> 1) := by
  unfold crcBit
  rw [BitVec.xor_zero, BitVec.ushiftRight_xor_distrib]
  split
  · ac_rfl
  · rfl

theorem crcBits_xor_zero (n : Nat) (c d : Byte) :
    crcBits n (c ^^^ d) 0#8 = crcBits n c d ^^^ (d >>> n) := by
  induction n generalizing c d with
  | zero => simp [crcBits]
  | succ n ih =>
    have hshift : (d >>> 1) >>> n = d >>> (n + 1) := by rw [← BitVec.shiftRight_add, Nat.add_comm]
    rw [crcBits, crcBits, crcBit_xor_zero, BitVec.zero_ushiftRight, ih, hshift]

/-- After eight rounds no data bit is still to come: register and data matter by their exclusive-or only (R231). -/
theorem crcByte_eq_crcByte_xor_zero (c d : Byte) : crcByte c d = crcByte (c ^^^ d) 0#8 := by
  have hout : d >>> 8 = 0#8 := BitVec.ushiftRight_eq_zero (Nat.le_refl 8)
  rw [crcByte, crcByte, crcBits_xor_zero, hout, BitVec.xor_zero]

theorem crc8_singleton_xor (c d : Byte) : crc8 [c ^^^ d] = crcByte c d :=
  calc crc8 [c ^^^ d] = crcByte 0#8 (c ^^^ d) := rfl
    _ = crcByte (c ^^^ d) 0#8 := by rw [crcByte_eq_crcByte_xor_zero, BitVec.zero_xor]
    _ = crcByte c d := (crcByte_eq_crcByte_xor_zero c d).symm

/-- Settles O55: the table at `c ^ d` is the step of the fold; the sixteen values are computed. -/
theorem crcByteAtATime : Obligations.CrcByteAtATime := by
  refine ⟨fun bs => ?_, by decide⟩
  simp only [crc8_singleton_xor]
  rfl

/-! ### The register loses nothing -/

/-- The top bit after a round is the bit that chose it, since the top bit of `0x8C` is set (R234). -/
theorem msb_crcBit (c d : Byte) : (crcBit c d).msb = (c.getLsbD 0 ^^ d.getLsbD 0) := by
  have hpoly : (0x8C#8).msb = true := rfl
  have hshift : (c >>> 1).msb = false := by simp [BitVec.msb_ushiftRight]
  rw [crcBit_eq_ite]
  cases c.getLsbD 0 ^^ d.getLsbD 0 with
  | false => exact hshift
  | true => rw [if_pos rfl, BitVec.msb_xor, hshift, hpoly, Bool.false_xor]

/-- The seven bits a round keeps, recovered from the register after it. -/
theorem ushiftRight_one_eq_of_crcBit (c d : Byte) :
    c >>> 1 = crcBit c d ^^^ (if (crcBit c d).msb then 0x8C#8 else 0#8) := by
  rw [msb_crcBit, crcBit_eq_ite]
  split
  · rw [BitVec.xor_assoc, BitVec.xor_self, BitVec.xor_zero]
  · rw [BitVec.xor_zero]

/-- A round can be undone (R234): the bit shifted out shows in the top bit, the others were kept. -/
theorem crcBit_injective (d : Byte) : Function.Injective (crcBit · d) := by
  intro a b (h : crcBit a d = crcBit b d)
  have hlow : a.getLsbD 0 = b.getLsbD 0 := by
    have hmsb := congrArg BitVec.msb h
    rw [msb_crcBit, msb_crcBit] at hmsb
    exact Bool.xor_left_inj.1 hmsb
  have hkept : a >>> 1 = b >>> 1 := by
    rw [ushiftRight_one_eq_of_crcBit a d, ushiftRight_one_eq_of_crcBit b d, h]
  refine BitVec.eq_of_getLsbD_eq fun i _ => ?_
  cases i with
  | zero => exact hlow
  | succ i => simpa [Nat.add_comm] using congrArg (BitVec.getLsbD · i) hkept

theorem crcBits_injective (n : Nat) (d : Byte) : Function.Injective (crcBits n · d) := by
  induction n generalizing d with
  | zero => exact Function.injective_id
  | succ n ih => exact (ih (d >>> 1)).comp (crcBit_injective d)

theorem crcByte_injective (d : Byte) : Function.Injective (crcByte · d) := crcBits_injective 8 d

theorem crcByte_injective_data (c : Byte) : Function.Injective (crcByte c) := by
  intro d e h
  rw [crcByte_eq_crcByte_xor_zero c d, crcByte_eq_crcByte_xor_zero c e] at h
  exact (BitVec.xor_right_inj c).1 (crcByte_injective 0#8 h)

theorem foldl_crcByte_injective (bs : List Byte) : Function.Injective (bs.foldl crcByte ·) := by
  induction bs with
  | nil => exact Function.injective_id
  | cons d bs ih => exact ih.comp (crcByte_injective d)

/-! ### The CRC law (O53) -/

/-- The register fed with itself is shifted out to zero (R233). -/
theorem crcByte_self (c : Byte) : crcByte c c = 0#8 := by
  rw [crcByte_eq_crcByte_xor_zero, BitVec.xor_self]
  rfl

theorem crcByte_eq_zero_iff (c d : Byte) : crcByte c d = 0#8 ↔ c = d :=
  ⟨fun h => crcByte_injective d (h.trans (crcByte_self d).symm), fun h => h ▸ crcByte_self c⟩

theorem crc8_append_singleton_eq_zero_iff (bs : List Byte) (d : Byte) :
    crc8 (bs ++ [d]) = 0#8 ↔ crc8 bs = d := by
  rw [crc8, List.foldl_append]
  exact crcByte_eq_zero_iff (crc8 bs) d

theorem crc8_take_eq_last_iff {n : Nat} (v : Vector Byte (n + 1)) :
    crc8 (v.toList.take n) = v[n] ↔ crc8 v.toList = 0#8 := by
  have hlen : v.toList.length = n + 1 := Vector.length_toList
  have hsplit : v.toList.take n ++ [v[n]] = v.toList := by
    rw [← Vector.getElem_toList (by omega), List.take_append_getElem, List.take_of_length_le hlen.le]
  rw [← crc8_append_singleton_eq_zero_iff, hsplit]

/-- Settles O53: a last byte equal to the CRC of those before it makes the whole 0, and no other byte does. -/
theorem crcLaw : Obligations.CrcLaw :=
  ⟨fun bs => (crc8_append_singleton_eq_zero_iff bs _).2 rfl,
    fun v => (scratchpadValid_iff v).trans (crc8_take_eq_last_iff v),
    fun r => (romValid_iff r).trans (crc8_take_eq_last_iff r)⟩

/-! ### Single-bit flips (O54) and the reference values (O56) -/

theorem xor_one_shiftLeft_ne {bit : Nat} (hbit : bit < 8) (d : Byte) : d ^^^ (1#8 <<< bit) ≠ d := by
  intro h
  have hflipped := congrArg (BitVec.getLsbD · bit) h
  simp [hbit] at hflipped

/-- The flipped byte leaves another register, and what follows keeps registers apart. -/
theorem foldl_crcByte_flipBit_ne {bs : List Byte} {pos bit : Nat} (hpos : pos < bs.length) (hbit : bit < 8)
    (c : Byte) : (flipBit bs pos bit).foldl crcByte c ≠ bs.foldl crcByte c := by
  induction bs generalizing pos c with
  | nil => exact absurd hpos (Nat.not_lt_zero pos)
  | cons d bs ih =>
    cases pos with
    | zero =>
      intro h
      exact xor_one_shiftLeft_ne hbit d (crcByte_injective_data c (foldl_crcByte_injective bs h))
    | succ pos => exact ih (Nat.lt_of_succ_lt_succ hpos) (crcByte c d)

/-- Settles O54: from the initial register. -/
theorem crcDetectsEverySingleBitFlip : Obligations.CrcDetectsEverySingleBitFlip :=
  fun _ _ _ hpos hbit => foldl_crcByte_flipBit_ne hpos hbit 0#8

/-- Settles O56, by computing the two values. -/
theorem crcReferenceValues : Obligations.CrcReferenceValues := by
  unfold Obligations.CrcReferenceValues
  decide +kernel

/-! ### The temperature decoder (O57) -/

theorem toInt_raw_bounds (lsb msb : Byte) : -32768 ≤ (msb ++ lsb).toInt ∧ (msb ++ lsb).toInt < 32768 :=
  ⟨BitVec.le_toInt _, BitVec.toInt_lt⟩

/-- What is dropped goes toward zero and is at most half a unit (R237 f). -/
theorem tdiv_ten_error (r : Int) :
    (0 ≤ r → 625 * r - 5 ≤ 10 * Int.tdiv (625 * r) 10 ∧ 10 * Int.tdiv (625 * r) 10 ≤ 625 * r) ∧
    (r < 0 → 625 * r ≤ 10 * Int.tdiv (625 * r) 10 ∧ 10 * Int.tdiv (625 * r) 10 ≤ 625 * r + 5) := by
  by_cases hr : 0 ≤ r
  · rw [Int.tdiv_eq_ediv_of_nonneg (by omega)]
    omega
  · have hneg : 625 * r = -(625 * -r) := by omega
    rw [hneg, Int.neg_tdiv, Int.tdiv_eq_ediv_of_nonneg (by omega)]
    omega

/-- The quotient fits 32 bits, so the result is exact (R236, R238). -/
theorem toInt_decodeTemp (lsb msb : Byte) :
    (decodeTemp lsb msb).toInt = Int.tdiv (625 * (msb ++ lsb).toInt) 10 := by
  have hraw := toInt_raw_bounds lsb msb
  have herror := tdiv_ten_error (msb ++ lsb).toInt
  rw [decodeTemp, tdiv, rawTemp, Int.mul_comm]
  exact BitVec.toInt_ofInt_eq_self (by decide) (by omega) (by omega)

theorem decodeTemp_error (lsb msb : Byte) :
    (0 ≤ (msb ++ lsb).toInt →
      625 * (msb ++ lsb).toInt - 5 ≤ 10 * (decodeTemp lsb msb).toInt ∧
      10 * (decodeTemp lsb msb).toInt ≤ 625 * (msb ++ lsb).toInt) ∧
    ((msb ++ lsb).toInt < 0 →
      625 * (msb ++ lsb).toInt ≤ 10 * (decodeTemp lsb msb).toInt ∧
      10 * (decodeTemp lsb msb).toInt ≤ 625 * (msb ++ lsb).toInt + 5) := by
  rw [toInt_decodeTemp]
  exact tdiv_ten_error _

theorem decodeTemp_bounds (lsb msb : Byte) :
    -2048000 ≤ (decodeTemp lsb msb).toInt ∧ (decodeTemp lsb msb).toInt ≤ 2047937 := by
  have hraw := toInt_raw_bounds lsb msb
  have herror := decodeTemp_error lsb msb
  omega

/-- `625 r` is a multiple of 10 for even `r` and 5 more than one for odd `r` (R237 f). -/
theorem decodeTemp_rounding (lsb msb : Byte) :
    ((msb ++ lsb).toInt % 2 = 0 → 10 * (decodeTemp lsb msb).toInt = 625 * (msb ++ lsb).toInt) ∧
    ((msb ++ lsb).toInt % 2 = 1 → 0 < (msb ++ lsb).toInt →
      10 * (decodeTemp lsb msb).toInt = 625 * (msb ++ lsb).toInt - 5) ∧
    ((msb ++ lsb).toInt % 2 = 1 → (msb ++ lsb).toInt < 0 →
      10 * (decodeTemp lsb msb).toInt = 625 * (msb ++ lsb).toInt + 5) := by
  obtain ⟨hpos, hneg⟩ := decodeTemp_error lsb msb
  refine ⟨fun heven => ?_, fun hodd hr => ?_, fun hodd hr => ?_⟩
  · omega
  · have := hpos hr.le
    omega
  · have := hneg hr
    omega

theorem decodeTemp_within_half (lsb msb : Byte) :
    625 * (msb ++ lsb).toInt - 5 ≤ 10 * (decodeTemp lsb msb).toInt ∧
    10 * (decodeTemp lsb msb).toInt ≤ 625 * (msb ++ lsb).toInt + 5 := by
  have herror := decodeTemp_error lsb msb
  omega

section
variable {lsb msb lsb' msb' : Byte}

theorem decodeTemp_succ (h : (msb' ++ lsb').toInt = (msb ++ lsb).toInt + 1) :
    (decodeTemp lsb' msb').toInt - (decodeTemp lsb msb).toInt = 62 ∨
    (decodeTemp lsb' msb').toInt - (decodeTemp lsb msb).toInt = 63 := by
  have hwithin := decodeTemp_within_half lsb msb
  have hwithin' := decodeTemp_within_half lsb' msb'
  omega

theorem decodeTemp_lt_of_raw_lt (h : (msb ++ lsb).toInt < (msb' ++ lsb').toInt) :
    (decodeTemp lsb msb).toInt < (decodeTemp lsb' msb').toInt := by
  have hwithin := decodeTemp_within_half lsb msb
  have hwithin' := decodeTemp_within_half lsb' msb'
  omega

theorem decodeTemp_neg (h : (msb' ++ lsb').toInt = -(msb ++ lsb).toInt) :
    (decodeTemp lsb' msb').toInt = -(decodeTemp lsb msb).toInt := by
  rw [toInt_decodeTemp, toInt_decodeTemp, h, Int.mul_neg, Int.neg_tdiv]

/-- Read unsigned, the raw values keep their order within a half, and the upper half is the negative one
(R237 e). -/
theorem decodeTemp_unsigned_order (hlt : (msb ++ lsb).toNat < (msb' ++ lsb').toNat) :
    ((msb' ++ lsb').toNat < 0x8000 ∨ 0x8000 ≤ (msb ++ lsb).toNat →
      (decodeTemp lsb msb).toInt < (decodeTemp lsb' msb').toInt) ∧
    ((msb ++ lsb).toNat < 0x8000 → 0x8000 ≤ (msb' ++ lsb').toNat →
      (decodeTemp lsb' msb').toInt < (decodeTemp lsb msb).toInt) := by
  have hbound' := (msb' ++ lsb').isLt
  have hsigned := BitVec.toInt_eq_toNat_cond (msb ++ lsb)
  have hsigned' := BitVec.toInt_eq_toNat_cond (msb' ++ lsb')
  refine ⟨fun hhalf => decodeTemp_lt_of_raw_lt ?_, fun hlow hhigh => decodeTemp_lt_of_raw_lt ?_⟩
  · omega
  · omega

end

/-- Settles O57: (a) to (f), with (c) and (e) from the error bound and (d) from the symmetry of `tdiv`. -/
theorem decodeTempProperties : Obligations.DecodeTempProperties :=
  ⟨toInt_decodeTemp, decodeTemp_bounds, by decide, fun _ _ _ _ => decodeTemp_succ,
    fun _ _ _ _ => decodeTemp_neg, fun _ _ _ _ => decodeTemp_unsigned_order, decodeTemp_rounding⟩

end Sys2Proof.Machine

/-! PROOF. The family 60_exceptions: how a command ends, by the first check that fails (O19). -/

namespace Sys2Proof.Machine

/-! ### The table, check by check -/

/-- The range check failed, by the operand's value (42_ds18b20 R193). -/
theorem bitsInRange_eq_false_iff (bits : Word) :
    bitsInRange bits = false ↔ bits.toInt < 9 ∨ 12 < bits.toInt := by
  rw [← Bool.not_eq_true, bitsInRange_iff]
  omega

section
variable {i : Instr} {s : State}

/-- The state check of the one-wire core is the first of the table (60_exceptions R265). -/
theorem endStatus_of_created (hi : checksOwState i = true) (hc : s.owState = .created) :
    endStatus i s = .invalidConfig := by
  cases i with
  | readAddress | setResolution rid bits | requestTemperature rid | readTemperature rid => exact if_pos hc
  | _ => cases hi

/-- The presence check is the next for a command that reaches the wire (60_exceptions R265). -/
theorem endStatus_of_absent (hwire : reachesWire i s = true) (h : s.nextPresence = false) :
    endStatus i s = .notConnected := by
  simp only [reachesWire, Bool.and_eq_true, bne_iff_ne] at hwire
  obtain ⟨⟨hi, hc⟩, hrange⟩ := hwire
  cases i with
  | setResolution rid bits =>
    have hin : ¬(bits.toInt < 9 ∨ 12 < bits.toInt) := by simp [← bitsInRange_eq_false_iff, hrange]
    simp [endStatus, hc, hin, h]
  | readAddress | requestTemperature rid | readTemperature rid => simp [endStatus, hc, h]
  | _ => cases hi

/-! ### The commands, check by check (O19) -/

/-- The state check of the quadrature core, and what it guards ends OK (41_quadrature R167). -/
theorem whenArmed_rspStatus {go : State → State} (hgo : (go s).rspStatus = .ok) :
    (whenArmed go s).rspStatus = endStatus .position s := by
  cases hq : s.qState with
  | created => simp [whenArmed_of_created hq, endStatus, hq]
  | ready => simp [whenArmed_of_ready hq, endStatus, hq, hgo]
  | failed => simp [whenArmed_of_failed hq, endStatus, hq]

/-- A command without the state check of the one-wire core is done by its first step. -/
theorem beginInstr_rspStatus_of_not_checks (hi : checksOwState i = false) :
    (beginInstr i s).rspStatus = endStatus i s := by
  cases i with
  | owConfigure => rfl
  | qConfigure p =>
    cases hsup : s.cfg.edgeIrqSupported with
    | true => simp [beginInstr, startQConfigure_of_supported hsup, endStatus, hsup]
    | false => simp [beginInstr, startQConfigure_of_unsupported hsup, endStatus, hsup]
  | position => rw [beginInstr, startPosition]; exact whenArmed_rspStatus (complete_rspStatus _ _)
  | setPosition v => rw [beginInstr, startSetPosition]; exact whenArmed_rspStatus (complete_rspStatus _ _)
  | reserved0 | reserved67 _ | reservedB | reservedCF _ => rfl
  | _ => cases hi

/-- Once configured, only the range check of `SetResolution` keeps a one-wire command off the wire, and it ends
the command with OK (42_ds18b20 R193). -/
theorem beginInstr_rspStatus_of_checks (hi : checksOwState i = true) (hc : s.owState ≠ .created)
    (hwire : reachesWire i s = false) : (beginInstr i s).rspStatus = endStatus i s := by
  cases i with
  | setResolution rid bits =>
    have hbits : bitsInRange bits = false := by simpa [reachesWire, checksOwState, hc] using hwire
    rw [beginInstr_setResolution_of_out_of_range hc rid hbits]
    simp [endStatus, hc, (bitsInRange_eq_false_iff bits).1 hbits]
  | readAddress | requestTemperature rid | readTemperature rid =>
    simp [reachesWire, checksOwState, hc] at hwire
  | _ => cases hi

/-- With a device present only the CRC check of a read can fail (42_ds18b20 R192, R196). -/
theorem runOut_rspStatus_of_present (hwire : reachesWire i s = true) (h : s.nextPresence = true) :
    (runOut (beginInstr i s)).rspStatus = endStatus i s := by
  simp only [reachesWire, Bool.and_eq_true, bne_iff_ne] at hwire
  obtain ⟨⟨hi, hc⟩, hrange⟩ := hwire
  cases i with
  | readAddress =>
    rw [runOut_readAddress_of_present hc h]
    by_cases hcrc : crc8 (s.nextRom.toList.take 7) = s.nextRom[7]
    · simp [(romValid_iff _).2 hcrc, endStatus, hc, h, hcrc]
    · simp [mt (romValid_iff _).1 hcrc, endStatus, hc, h, hcrc]
  | readTemperature rid =>
    rw [runOut_readTemperature_of_present hc h]
    by_cases hcrc : crc8 (s.nextScratchpad.toList.take 8) = s.nextScratchpad[8]
    · simp [(scratchpadValid_iff _).2 hcrc, endStatus, hc, h, hcrc]
    · simp [mt (scratchpadValid_iff _).1 hcrc, endStatus, hc, h, hcrc]
  | requestTemperature rid =>
    rw [runOut_requestTemperature_of_present hc h]
    simp [endStatus, hc, h]
  | setResolution rid bits =>
    rw [runOut_setResolution_of_present hc h rid hrange]
    simp [endStatus, hc, h]
  | _ => cases hi

end

/-- The status a command answers is the one of the table, whichever check is the first to fail. -/
theorem runOut_rspStatus (i : Instr) (s : State) : (runOut (beginInstr i s)).rspStatus = endStatus i s := by
  cases hwire : reachesWire i s with
  | false =>
    rw [runOut_beginInstr_of_not_reachesWire hwire]
    cases hi : checksOwState i with
    | false => exact beginInstr_rspStatus_of_not_checks hi
    | true =>
      by_cases hc : s.owState = .created
      · rw [beginInstr_of_created hi hc, endStatus_of_created hi hc, raise_rspStatus]
      · exact beginInstr_rspStatus_of_checks hi hc hwire
  | true =>
    cases hpresence : s.nextPresence with
    | false =>
      obtain ⟨op, hrun⟩ := runOut_beginInstr_of_absent hwire hpresence
      rw [hrun, endStatus_of_absent hwire hpresence, raise_rspStatus]
    | true => exact runOut_rspStatus_of_present hwire hpresence

/-- Settles O19: `exec` is the whole run, and a run ends with the status of the first check that fails. -/
theorem endStatusIsTheTable : Obligations.EndStatusIsTheTable :=
  fun i s => ⟨_, exec_eq_runOut i s, runOut_rspStatus i s⟩

end Sys2Proof.Machine

/-! PROOF. The family 70_reset_and_hazards: a reset during a command (O12), a line stuck low (O36), and the least
times of the wire commands (O39). -/

namespace Sys2Proof.Machine

/-! ### Reset at any instant (O12) -/

/-- In reset, with no outside event due, only the countdown to the next one goes on (70_reset R300). -/
theorem step_of_in_reset {s : State} (hlow : s.rstN = false) (hp : popDue s = none) :
    step s = .next (tick s) := by
  simp [step, hp, blockStep, hlow]

/-- Settles O12: the event lands before the block moves, and in reset the block does not move. -/
theorem resetAbandonsTheCommand : Obligations.ResetAbandonsTheCommand :=
  ⟨fun _ _ hdue => step_of_due hdue, fun _ => step_of_in_reset⟩

/-! ### A line stuck low (O36) -/

/-- Eight samples low are the byte 0x00 (40_onewire_link R137). -/
theorem byteAt_of_low {answers : List Bool} {n : Nat} (h : ∀ i < 8, levelAt answers (n + i) = false) :
    byteAt answers n = 0#8 := by
  refine BitVec.eq_of_getLsbD_eq fun i hi => ?_
  rw [byteAt_getLsbD _ _ hi, h i hi]
  exact BitVec.getLsbD_zero.symm

/-- A row of zero bytes never moves the CRC register from 0 (43_crc8_and_decode R230). -/
theorem crc8_replicate_zero (n : Nat) : crc8 (List.replicate n 0#8) = 0#8 := by
  induction n with
  | zero => rfl
  | succ n ih => rwa [List.replicate_succ', crc8_append_singleton_eq_zero_iff]

/-- A buffer of zero bytes validates, a ROM id (`n = 7`) as a scratchpad (`n = 8`) (70_reset R316). -/
theorem crc8_take_replicate_zero (n : Nat) :
    crc8 ((Vector.replicate (n + 1) 0#8).toList.take n) = (Vector.replicate (n + 1) 0#8)[n] := by
  rw [crc8_take_eq_last_iff, Vector.toList_replicate, crc8_replicate_zero]

section
variable {s : State} (hlow : ∀ j < 73, levelAt s.answers (s.samples + j) = false)
include hlow

/-- A line stuck low looks like a presence pulse (70_reset R316). -/
theorem nextPresence_of_stuck_low : s.nextPresence = true := by
  have hsample : levelAt s.answers s.samples = false := hlow 0 (by decide)
  rw [State.nextPresence, hsample, Bool.not_false]

theorem nextByte_of_stuck_low {j : Nat} (hj : j < 9) : s.nextByte j = 0#8 :=
  byteAt_of_low fun i hi => by
    rw [Nat.add_assoc, Nat.add_assoc]
    exact hlow (1 + (8 * j + i)) (by omega)

theorem nextRom_of_stuck_low : s.nextRom = Vector.replicate 8 0#8 := by
  simp only [State.nextRom, nextByte_of_stuck_low hlow, Nat.reduceLT]
  rfl

theorem nextScratchpad_of_stuck_low : s.nextScratchpad = Vector.replicate 9 0#8 := by
  simp only [State.nextScratchpad, nextByte_of_stuck_low hlow, Nat.reduceLT]
  rfl

end

/-- Settles O36: the line shows a presence pulse and zero bytes, and zero bytes validate and are the result 0. -/
theorem lineStuckLowAnswersOkZero : Obligations.LineStuckLowAnswersOkZero := by
  intro s hc hlow
  have hpresence := nextPresence_of_stuck_low hlow
  have hromZero : bitsOfRom (Vector.replicate 8 0#8) = 0 := by decide
  have htempZero : (decodeTemp 0#8 0#8).setWidth 64 = 0 := by decide
  refine ⟨?_, fun rid => ?_⟩
  · obtain ⟨t, hexec, ht⟩ := readAddressResult s hc hpresence
    refine ⟨t, hexec, ?_⟩
    rw [ht, nextRom_of_stuck_low hlow]
    simp only [if_pos (crc8_take_replicate_zero 7)]
    exact ⟨trivial, rfl, trivial, hromZero⟩
  · obtain ⟨t, hexec, ht⟩ := readTemperatureResult s rid hc hpresence
    refine ⟨t, hexec, ?_⟩
    rw [ht, nextScratchpad_of_stuck_low hlow]
    simp only [if_pos (crc8_take_replicate_zero 8)]
    exact ⟨trivial, rfl, trivial, htempZero⟩

/-! ### The least times (O39) -/

/-- With the default durations a slot that sends a 1 takes as long as one that sends a 0 (40_onewire_link R131). -/
theorem writeBitTime_default (b : Bool) : writeBitTime .default b = 70 := by cases b <;> rfl

theorem writeByteTime_default (b : Byte) : writeByteTime .default b = 560 := by
  simp only [writeByteTime, writeBitTime_default]
  rfl

theorem writeBytesTime_default (bs : List Byte) : writeBytesTime .default bs = 560 * bs.length := by
  rw [writeBytesTime, List.map_congr_left fun b _ => writeByteTime_default b]
  simp [Nat.mul_comm]

theorem readBitTime_default : readBitTime .default = 70 := rfl

/-- The least time of a reset of the line (40_onewire_link R134). -/
def resetTime (t : SlotTimes) : Nat := t.tRstl + t.tPds + t.tRstr

theorem resetTime_default : resetTime .default = 960 := rfl

@[simp] theorem afterSending_cfg (bytes : List Byte) (s : State) : (afterSending bytes s).cfg = s.cfg := rfl

@[simp] theorem afterSending_waited (bytes : List Byte) (s : State) :
    (afterSending bytes s).waited = s.waited + resetTime s.cfg.times + writeBytesTime s.cfg.times bytes := by
  simp only [afterSending, resetTime, Nat.add_assoc]

section
variable {s : State} (htimes : s.cfg.times = .default)
include htimes

/-- `ReadAddress` up to its CRC check: the reset, a byte sent and eight received (70_reset R325). -/
theorem romRead_waited : (romRead s).waited = s.waited + 960 + 560 * wireBytes .readAddress := by
  simp [romRead, applyAll_readRom, htimes, resetTime_default, writeBytesTime_default, readBitTime_default,
    wireBytes, Nat.add_assoc]

/-- `ReadTemperature` up to its CRC check: the reset, the bytes sent and nine received (70_reset R325). -/
theorem scratchpadRead_waited (rid : Option RomId) :
    (scratchpadRead rid s).waited = s.waited + 960 + 560 * wireBytes (.readTemperature rid) := by
  cases rid <;>
    simp [scratchpadRead, applyAll_readScratch, htimes, resetTime_default, writeBytesTime_default, selectedBytes,
      readBitTime_default, wireBytes, Nat.add_assoc]

/-- A command with a device present waits by the table, whether a read's CRC check passes or not. -/
theorem runOut_waited_of_present {i : Instr} (hwire : reachesWire i s = true) (h : s.nextPresence = true) :
    (runOut (beginInstr i s)).waited = s.waited + 960 + 560 * wireBytes i := by
  simp only [reachesWire, Bool.and_eq_true, bne_iff_ne] at hwire
  obtain ⟨⟨hi, hc⟩, hrange⟩ := hwire
  cases i with
  | readAddress =>
    rw [runOut_readAddress_of_present hc h]
    split <;> simp only [complete_waited, raise_waited, romRead_waited htimes]
  | readTemperature rid =>
    rw [runOut_readTemperature_of_present hc h]
    split <;> simp only [complete_waited, raise_waited, scratchpadRead_waited htimes]
  | requestTemperature rid =>
    rw [runOut_requestTemperature_of_present hc h]
    cases rid <;> simp [htimes, resetTime_default, writeBytesTime_default, selectedBytes, wireBytes]
  | setResolution rid bits =>
    rw [runOut_setResolution_of_present hc h rid hrange]
    cases rid <;> simp [htimes, resetTime_default, writeBytesTime_default, selectedBytes, wireBytes]
  | _ => cases hi

end

/-- Settles O39: `exec` is the whole run, and a run with a device present waits by the table. -/
theorem commandDurations : Obligations.CommandDurations :=
  fun i s htimes hwire hpresence => ⟨_, exec_eq_runOut i s, runOut_waited_of_present htimes hwire hpresence⟩

end Sys2Proof.Machine
